-- ==== Sys2Proof/Config.lean ====
section
/-! DEFINITION. The parameters of `00_scope.md` rule R11: the wire constants, the width `W`, and the parameters of the
environment that no rule of the engine reads. -/

namespace Sys2Proof.Config

/-- The default of `W` (R11, D3). Nothing rests on it. -/
abbrev defaultW : Nat := 32

/-- How far `W` is above 16. It has no value: `W` is OPEN (R11). -/
opaque widthAbove16 : Nat

/-- `W`, the width of `cur`, `cap`, `ARM`'s operand, `SinkWrite.off` and `Complete.len` (R11: "OPEN, default 32", D3). Every
claim holds for every `W` from 16 on. DEDUCED (log entry 1): the spec's own vectors have a cursor of 32896. -/
abbrev W : Nat := 16 + widthAbove16

/-- Start-Of-Header, received (R55). -/
abbrev SOH : BitVec 8 := 0x01#8

/-- End-Of-Transmission, received (R55). -/
abbrev EOT : BitVec 8 := 0x04#8

/-- Acknowledge, transmitted (R55). -/
abbrev ACK : BitVec 8 := 0x06#8

/-- Negative-Acknowledge, transmitted (R55). -/
abbrev NAK : BitVec 8 := 0x15#8

/-- `PAYLOAD_LEN`: payload bytes per frame (R11). -/
abbrev payloadLen : Nat := 128

/-- `HEADER_LEN`: bytes before the payload (R11). -/
abbrev headerLen : Nat := 3

/-- `FRAME_LEN`: bytes per data frame (R11, R52). -/
abbrev frameLen : Nat := 132

/-- `FIRST_BLOCK`: the block number of the first block of a session (R11). -/
abbrev firstBlock : BitVec 8 := 1#8

/-- `MAX_RETRIES`: none, retries are unbounded (R106). -/
abbrev maxRetries : Option Nat := none

/-- `HAS_ABORT`: absent; `RST` is the only way out of a transfer from outside (R107). -/
abbrev hasAbort : Bool := false

/-- What an `ARM` does when the engine is not Idle (R11, R95). -/
inductive RearmPolicy where
  | reject
  | queue
  deriving DecidableEq, Repr

/-- `REARM_POLICY`: reject with `ArmRejected` (R95). -/
abbrev rearmPolicy : RearmPolicy := .reject

/-- The two Sink shapes of R6, R112 and R113. -/
inductive SinkShape where
  | rearmableBuffer
  | executeInPlace
  deriving DecidableEq, Repr, Inhabited

/-- `SINK_SHAPE`: a property of the external Sink that the engine does not read (R6, R11); left open. -/
opaque sinkShape : SinkShape

/-- Which interval a read carries (R135). -/
inductive ReadInterval where
  | tIdle
  | tByte
  deriving DecidableEq, Repr

/-- The length of an interval, in the Transport's own unit: OPEN, and no rule reads it (R10, R11, R135). -/
opaque intervalLength : ReadInterval → Nat

end Sys2Proof.Config
end

