-- ==== Sys2Proof/Word.lean ====
section
/-! DEFINITION. The two kinds of word the engine handles: the byte of the wire and the W-bit number. -/

namespace Sys2Proof

/-- A byte: 8 bits, unsigned (`00_scope.md` section 5). -/
abbrev Byte := BitVec 8

/-- `zext_W(v)` (`00_scope.md` section 5): a W-bit unsigned number (an offset, a length, a capacity, R11) is held as the number
it is. R90 allows "unbounded naturals for `cur` and `cap`", since no W-bit operation of the engine wraps. What must be below
`2^W` is `ARM`'s operand (`Instr.wellFormed`, `Event.wellFormed`); that the others then are, is an invariant. -/
abbrev zextW (v : Byte) : Nat := v.toNat

/-- Whether a number is one of `W` bits (R11, R90). -/
def inWidth (n : Nat) : Bool := decide (n < 2 ^ Config.W)

end Sys2Proof
end

