-- ==== Sys2Proof/Syntax.lean ====
section
/-! DEFINITION. The instructions (one constructor per row of `opcode_table.json`), the input events and the output
records of `00_scope.md` rule R8, and the signals the decoder reads. -/

namespace Sys2Proof

/-- The fourteen rows of the opcode table (`30_encoding.md` R69). -/
inductive Instr where
  /-- DATA, a whole frame behind its start marker: block number, complement, payload, checksum (R52). -/
  | data (number complement : Byte) (payload : List Byte) (checksum : Byte)
  /-- DATA.SOH, the start marker at `pos` = 0 (R72). -/
  | dataSoh
  /-- DATA.BLK, the block number at `pos` = 1 (R74). -/
  | dataBlk (number : Byte)
  /-- DATA.CMP, the complement at `pos` = 2 (R75). -/
  | dataCmp (complement : Byte)
  /-- DATA.PAY, a payload byte at `pos` = 3..130 (R76). -/
  | dataPay (value : Byte)
  /-- DATA.SUM, the checksum at `pos` = 131 (R77). -/
  | dataSum (checksum : Byte)
  /-- EOT at `pos` = 0 (R71, R96). -/
  | eot
  /-- ILLEGAL: any other byte at `pos` = 0 (R73). -/
  | illegal (value : Byte)
  /-- ACK, transmitted (R54). -/
  | ack
  /-- NAK, transmitted (R54). -/
  | nak
  /-- TMO, the Transport answers Timeout (R97). -/
  | tmo
  /-- ARM, the consumer arms a destination of the given capacity (R94, R95). -/
  | arm (capacity : Nat)
  /-- CPL, the consumer takes the completion (R99). -/
  | cpl
  /-- RST, reset (R142). -/
  | rst
  deriving DecidableEq, Repr

/-- The input events (R8, R65). -/
inductive Event where
  | rx (b : Byte)
  | tmo
  | arm (c : Nat)
  | cpl
  | rst
  deriving DecidableEq, Repr

/-- The error flag of a completion, `error_flag ∈ {None, Overflow}` (R22, R66). -/
inductive ErrFlag where
  | none
  | overflow
  deriving DecidableEq, Repr

/-- The output records (R8, R66). -/
inductive Output where
  | tx (b : Byte)
  | sinkWrite (off : Nat) (v : Byte)
  | complete (len : Nat) (flag : ErrFlag)
  | armRejected
  deriving DecidableEq, Repr

/-- What an instruction looks like where it crosses an interface of the engine: an input event, a transmitted response
byte, or the bytes of a whole frame (R51, R65). -/
inductive Signal where
  | event (e : Event)
  | response (b : Byte)
  | frame (bytes : List Byte)
  deriving DecidableEq, Repr

end Sys2Proof
end

