-- ==== Sys2Proof/WellFormed.lean ====
section
/-! DEFINITION. What an instruction must satisfy to be one of the opcode table's. -/

namespace Sys2Proof

/-- A DATA frame holds exactly 128 payload bytes (R52, R58); an ILLEGAL byte is neither 0x01 nor 0x04 (R60, the table's
`excludes`); `ARM`'s operand is one of W bits (R65, 93 E1: above that it is "not expressible"). Nothing else is restricted: a wrong complement or checksum is a legal input the engine answers (R62). -/
def Instr.wellFormed : Instr → Bool
  | .data _ _ payload _ => payload.length == Config.payloadLen
  | .illegal b => b != Config.SOH && b != Config.EOT
  | .dataSoh => true
  | .dataBlk _ => true
  | .dataCmp _ => true
  | .dataPay _ => true
  | .dataSum _ => true
  | .eot => true
  | .ack => true
  | .nak => true
  | .tmo => true
  | .arm c => inWidth c
  | .cpl => true
  | .rst => true

/-- What an input event must satisfy: its operand fits its field (R65). -/
def Event.wellFormed : Event → Bool
  | .rx _ => true
  | .tmo => true
  | .arm c => inWidth c
  | .cpl => true
  | .rst => true

/-- What a signal must satisfy. -/
def Signal.wellFormed : Signal → Bool
  | .event e => e.wellFormed
  | .response _ => true
  | .frame _ => true

end Sys2Proof
end

