-- ==== Sys2Proof/Decode.lean ====
section
/-! DEFINITION. The decoder and the encoder (`30_encoding.md`). Decoding of a received byte depends on `pos`: control
bytes are interpreted only at `pos` = 0 (R61). -/

namespace Sys2Proof

/-- Why the decoder refuses. -/
inductive DecodeError where
  /-- `pos` is in 132..255, which the register never holds in a run (R15). -/
  | positionOutOfRange
  /-- A transmitted byte that is neither ACK nor NAK (R35, R54). -/
  | notAResponse
  /-- A whole frame that is not 132 bytes long (R52). -/
  | wrongFrameLength
  /-- A whole frame whose first byte is not SOH (R52). -/
  | noStartMarker
  /-- A whole frame in front of a parser that is inside another one (R60: a frame begins at `pos` = 0). -/
  | notAtFrameStart
  deriving DecidableEq, Repr

/-- The meaning of a byte at `pos` = 0 (R60): SOH, EOT, and every other value illegal. -/
def decodeFirst (b : Byte) : Instr :=
  if b = Config.SOH then .dataSoh
  else if b = Config.EOT then .eot
  else .illegal b

/-- The meaning of a received byte at a position of the frame (R60, R61, R62). -/
def decodeRx (pos b : Byte) : Except DecodeError Instr :=
  if pos.toNat = 0 then .ok (decodeFirst b)
  else if pos.toNat = 1 then .ok (.dataBlk b)
  else if pos.toNat = 2 then .ok (.dataCmp b)
  else if pos.toNat ≤ 130 then .ok (.dataPay b)
  else if pos.toNat = 131 then .ok (.dataSum b)
  else .error .positionOutOfRange

/-- The meaning of a transmitted byte (R54, R55). -/
def decodeResponse (b : Byte) : Except DecodeError Instr :=
  if b = Config.ACK then .ok .ack
  else if b = Config.NAK then .ok .nak
  else .error .notAResponse

/-- The meaning of 132 bytes taken as a whole frame (R52). -/
def decodeFrame : List Byte → Except DecodeError Instr
  | soh :: number :: complement :: rest =>
    match rest.drop Config.payloadLen with
    | [checksum] =>
      if soh = Config.SOH then .ok (.data number complement (rest.take Config.payloadLen) checksum)
      else .error .noStartMarker
    | _ => .error .wrongFrameLength
  | _ => .error .wrongFrameLength

/-- The meaning of an input event in front of an engine whose parser stands at `pos` (R65). -/
def decodeEvent (pos : Byte) : Event → Except DecodeError Instr
  | .rx b => decodeRx pos b
  | .tmo => .ok .tmo
  | .arm c => .ok (.arm c)
  | .cpl => .ok .cpl
  | .rst => .ok .rst

/-- The decoder, total on every signal. -/
def decode (pos : Byte) : Signal → Except DecodeError Instr
  | .event e => decodeEvent pos e
  | .response b => decodeResponse b
  | .frame bytes => if pos.toNat = 0 then decodeFrame bytes else .error .notAtFrameStart

/-- The encoding of the error flag (R11, R22, R66, D15); no agent computes with it. -/
def ErrFlag.code : ErrFlag → BitVec 1
  | .none => 0#1
  | .overflow => 1#1

/-- The encoder: the signal that stands for an instruction (R52 to R54, R65). -/
def encode : Instr → Signal
  | .data n c p s => .frame (Config.SOH :: n :: c :: (p ++ [s]))
  | .dataSoh => .event (.rx Config.SOH)
  | .dataBlk n => .event (.rx n)
  | .dataCmp c => .event (.rx c)
  | .dataPay v => .event (.rx v)
  | .dataSum s => .event (.rx s)
  | .eot => .event (.rx Config.EOT)
  | .illegal b => .event (.rx b)
  | .ack => .response Config.ACK
  | .nak => .response Config.NAK
  | .tmo => .event .tmo
  | .arm c => .event (.arm c)
  | .cpl => .event .cpl
  | .rst => .event .rst

/-- The bytes a signal puts on the wire; an event off the wire has none (R65). -/
def Signal.bytes : Signal → List Byte
  | .event (.rx b) => [b]
  | .event .tmo => []
  | .event (.arm _) => []
  | .event .cpl => []
  | .event .rst => []
  | .response b => [b]
  | .frame bytes => bytes

/-- The positions an instruction can stand at (`opcode_table.json`, R61). A response or an event off the wire is not tied
to a position. -/
def Instr.standsAt (pos : Byte) : Instr → Bool
  | .data _ _ _ _ => pos.toNat == 0
  | .dataSoh => pos.toNat == 0
  | .dataBlk _ => pos.toNat == 1
  | .dataCmp _ => pos.toNat == 2
  | .dataPay _ => 3 ≤ pos.toNat && pos.toNat ≤ 130
  | .dataSum _ => pos.toNat == 131
  | .eot => pos.toNat == 0
  | .illegal _ => pos.toNat == 0
  | .ack => true
  | .nak => true
  | .tmo => true
  | .arm _ => true
  | .cpl => true
  | .rst => true

/-- The first `n` bytes of a number, byte 0 the least significant (the opcode table's numbering of bits). -/
def bytesOfNat (n w : Nat) : List Byte :=
  (List.range n).map fun k => BitVec.ofNat 8 (w >>> (8 * k))

/-- The instruction the decoder reads from a word of the opcode table. A word of one byte is a symbol of the alphabet of
R55: ACK and NAK are the transmitted ones, every other value is a byte received at `pos` = 0. A longer word is a whole
frame where its first byte is SOH, and its first byte alone where it is not (R60, R64). DESIGN CHOICE (log entry 7). -/
def decodeTableWord (nbits w : Nat) : Option Instr :=
  if nbits = 0 then none
  else if nbits ≤ 8 then
    match decodeResponse (BitVec.ofNat 8 w) with
    | .ok i => some i
    | .error _ => some (decodeFirst (BitVec.ofNat 8 w))
  else
    match decodeFrame (bytesOfNat Config.frameLen w) with
    | .ok i => some i
    | .error _ => some (decodeFirst (BitVec.ofNat 8 w))

end Sys2Proof
end

