-- ==== Sys2Proof/Machine/State.lean ====
section
/-! DEFINITION. The machine's state: the nine registers of `10_state.md` rule R13 and the state the engine depends on but
does not hold (R29, R33 to R35). -/

namespace Sys2Proof.Machine

/-- The protocol states (R14, R93): IDLE, AWAIT, XFER, DONE. -/
inductive Proto where
  | idle
  | await
  | xfer
  | done
  deriving DecidableEq, Repr

/-- The numeric encoding of `st` (R14, D4); no agent can read it. -/
def Proto.code : Proto → BitVec 2
  | .idle => 0#2
  | .await => 1#2
  | .xfer => 2#2
  | .done => 3#2

/-- The defects that are raised (R119). DuplicateBlock is not one: it is not an error. -/
inductive Defect where
  | framingError
  | checksumError
  | timeoutDuringFrame
  | overflow
  deriving DecidableEq, Repr

/-- The Block Validator's classification at `pos` = 131 (R81). -/
inductive BlockClass where
  | checksumError
  | duplicate
  | overflow
  | accept
  deriving DecidableEq, Repr

/-- The sink space (R33): the offsets written so far with their bytes, offsets strictly rising. An unlisted offset was
never written and reads as no value (DESIGN CHOICE, log entry 9). -/
abbrev Memory := List Host.Cell

/-- Why a step can stop with a fault. -/
inductive Fault where
  /-- Raised by the fetch of a received byte while `pos` is in 132..255, a value the register never holds in a run (R15);
  safe. -/
  | positionOutOfRange
  deriving DecidableEq, Repr

/-- Why a step can be refused. -/
inductive Refusal where
  /-- Raised by `exec` for an instruction that has no meaning yet; safe. No arm raises it. -/
  | notModelled (mnemonic : String)
  /-- Raised by the `RX` instructions and TMO while no read is pending, and by CPL outside DONE: the event is "not
  enabled" (R100, R101; 93 E5 "refuse"); safe. -/
  | notEnabled
  /-- Raised by a received-byte instruction at another `pos` than its own: the decoder gives it at no such state (R61);
  safe. -/
  | notAtPosition
  /-- Raised by `step` when the environment offers no event: the engine waits (R140); safe. -/
  | noEvent
  /-- Raised by the delivery of a byte that is neither ACK nor NAK, which the engine never emits (R35); safe. -/
  | notAResponse
  deriving DecidableEq, Repr

/-- The state. -/
structure State where
  /-- `st`, the protocol state (R14). -/
  st : Proto
  /-- `pos`, the offset of the next byte within the frame (R15). -/
  pos : Byte
  /-- `exp`, the expected block number (R16). -/
  exp : Byte
  /-- `blk`, the block number of the frame being parsed (R17). -/
  blk : Byte
  /-- `dup`, whether that frame is a duplicate (R18). -/
  dup : Bool
  /-- `sum`, the running checksum (R19). -/
  sum : Byte
  /-- `cur`, the write cursor, W bits (R20, R90). -/
  cur : Nat
  /-- `cap`, the destination bytes not yet committed, W bits (R21, R90). -/
  cap : Nat
  /-- `err`, the error flag of the completion (R22). -/
  err : ErrFlag
  /-- The sink space (R33, R29 (c)). It is one and the same for every session: an accepted `ARM` keeps it, where R112 speaks of
  a "new region" (DESIGN CHOICE, log entry 14). -/
  dest : Memory
  /-- The events the environment presents, oldest first (R8, R34). -/
  input : List Event
  /-- The outputs emitted and not yet delivered, oldest first (R8, R34, R104). -/
  pend : List Output
  /-- The outputs delivered so far, oldest first (R9, R35, R47). -/
  out : List Output
  deriving DecidableEq, Repr

/-- The machine right after reset: the register values of R13 and R142; nothing written, nothing offered, nothing emitted
(log entries 3, 5 and 9). -/
def State.reset : State where
  st := .idle
  pos := 0#8
  exp := 1#8
  blk := 0#8
  dup := false
  sum := 0#8
  cur := 0
  cap := 0
  err := .none
  dest := []
  input := []
  pend := []
  out := []

end Sys2Proof.Machine
end

