-- ==== Sys2Proof/Machine/Operands.lean ====
section
/-! DEFINITION. The operands and the arithmetic they are formed with (`30_encoding.md` section 2, `41_block_validator.md`
section 2, `43_sink.md` R110). -/

namespace Sys2Proof.Machine

/-- The complement of a block number, `255 - n` (R57, R88). -/
def complementOf (n : Byte) : Byte := 255#8 - n

/-- The next block number, `(n + 1) mod 256` (R89). -/
def successor (n : Byte) : Byte := n + 1#8

/-- The previous block number, `(n - 1) mod 256` (R89). -/
def predecessor (n : Byte) : Byte := n - 1#8

/-- The checksum accumulator after one more payload byte, `(sum + b) mod 256` (R76, R87). -/
def addToSum (sum b : Byte) : Byte := sum + b

/-- The checksum of a payload: the sum of its bytes modulo 256 (R59, R87). -/
def checksumOf (payload : List Byte) : Byte := payload.foldl addToSum 0#8

/-- `PAYLOAD_LEN` as a W-bit number: what an accepted block moves `cur` and `cap` by (R85, R91). -/
def blockSize : Nat := Config.payloadLen

/-- The cursor after an accepted block (R85, R90). -/
def advance (cur : Nat) : Nat := cur + blockSize

/-- The capacity left after an accepted block (R85, R90). -/
def consume (cap : Nat) : Nat := cap - blockSize

/-- The index of the payload byte at `pos`, `pos - 3` (R76). -/
def payloadIndex (pos : Byte) : Byte := pos - BitVec.ofNat 8 Config.headerLen

/-- The one addressing mode of a sink write, cursor plus index: `cur + zext_W(pos - 3)` (R110). -/
def stagingOffset (cur : Nat) (pos : Byte) : Nat := cur + zextW (payloadIndex pos)

end Sys2Proof.Machine
end

