-- ==== Sys2Proof/Machine/Flags.lean ====
section
/-! DEFINITION. The conditions of `10_state.md` rule R25, the enabling conditions of `42_sequencer.md`, and the
classification of R81. -/

namespace Sys2Proof.Machine

/-- The block number at `pos` = 1 is the expected one (R25). -/
def hdrNew (s : State) (b : Byte) : Bool := b == s.exp

/-- The block number at `pos` = 1 is the one just accepted (R25). -/
def hdrDup (s : State) (b : Byte) : Bool := s.st == .xfer && b == predecessor s.exp && !hdrNew s b

/-- The byte at `pos` = 2 is the complement of the block number (R25). -/
def cmpOk (s : State) (b : Byte) : Bool := b == complementOf s.blk

/-- The byte at `pos` = 131 is the accumulated checksum (R25). -/
def sumOk (s : State) (b : Byte) : Bool := b == s.sum

/-- The next block fits: `cap ≥ 128`, an unsigned comparison (R25, R91). -/
def fits (s : State) : Bool := decide (Config.payloadLen ≤ s.cap)

/-- A session is open: `st ∈ {AWAIT, XFER}` (R93). -/
def sessionOpen (s : State) : Bool := s.st == .await || s.st == .xfer

/-- A read is pending: a session is open and no output of the previous step is still being delivered (R34). -/
def readPending (s : State) : Bool := sessionOpen s && s.pend.isEmpty

/-- The interval the pending read carries, if one is pending (R135). -/
def readInterval (s : State) : Option Config.ReadInterval :=
  if readPending s then
    if s.pos.toNat = 0 ∧ s.st = .await then some .tIdle else some .tByte
  else none

/-- Which events are enabled (R65, R93, R100, R101). -/
def enabled (s : State) : Event → Bool
  | .rx _ => sessionOpen s
  | .tmo => sessionOpen s
  | .arm _ => true
  | .cpl => s.st == .done
  | .rst => true

/-- Whether the payload byte at `pos` is written to the Sink: a new block that fits (R76). -/
def staged (s : State) : Bool := !s.dup && fits s

/-- The Block Validator's classification, in the order of R81. -/
def classify (s : State) (b : Byte) : BlockClass :=
  if !sumOk s b then .checksumError
  else if s.dup then .duplicate
  else if !fits s then .overflow
  else .accept

end Sys2Proof.Machine
end

