-- ==== Sys2Proof/Machine/Ops.lean ====
section
/-! DEFINITION. The shared operations: the sink space, the named updates of the registers, emitting an output, raising a
defect (the engine's exception entry) and what follows it. -/

namespace Sys2Proof.Machine

/-- Go on with `f` after a next state; a fault or a refusal ends it. -/
def andThen {α : Type} (o : Host.Outcome α Fault Refusal) (f : α → Host.Outcome State Fault Refusal) :
    Host.Outcome State Fault Refusal :=
  match o with
  | .next a => f a
  | .fault r => .fault r
  | .refused r => .refused r

/-! ## The sink space (R33) -/

/-- The canonical form: offsets strictly rising. (Every listed byte differs from an unlisted one, which is no value.) -/
abbrev Memory.wf (m : Memory) : Prop := m.Pairwise fun a b => a.1 < b.1

/-- The byte at an offset, none where nothing was written. -/
def Memory.read (m : Memory) (a : Nat) : Option Byte :=
  match m with
  | [] => none
  | c :: rest => if a = c.1 then some c.2 else Memory.read rest a

/-- One byte written; it overwrites what was there (R43). -/
def Memory.write (m : Memory) (a : Nat) (v : Byte) : Memory :=
  match m with
  | [] => [(a, v)]
  | c :: rest =>
    if a < c.1 then (a, v) :: c :: rest
    else if a = c.1 then (a, v) :: rest
    else c :: Memory.write rest a v

/-! ## Named updates -/

/-- `pos <- p`. -/
def State.setPos (p : Byte) (s : State) : State := { s with pos := p }

/-- `emit X` (`00_scope.md` section 5): appended to the step's outputs. -/
def State.emit (o : Output) (s : State) : State := { s with pend := s.pend ++ [o] }

/-- An accepted block number: `blk <- b ; dup <- d ; pos <- 2` (R74). -/
def State.takeNumber (b : Byte) (d : Bool) (s : State) : State := { s with blk := b, dup := d, pos := 2#8 }

/-- An accepted complement: `sum <- 0 ; pos <- 3` (R75). -/
def State.startPayload (s : State) : State := { s with sum := 0#8, pos := 3#8 }

/-- A payload byte summed: `sum <- (sum + b) mod 256 ; pos <- pos + 1` (R76). -/
def State.takePayload (b : Byte) (s : State) : State := { s with sum := addToSum s.sum b, pos := s.pos + 1#8 }

/-- The commit of a block: `cur <- cur + 128 ; cap <- cap - 128 ; exp <- (exp + 1) mod 256 ; st <- XFER ; pos <- 0`
(R85, R111). -/
def State.commitBlock (s : State) : State :=
  { s with cur := advance s.cur, cap := consume s.cap, exp := successor s.exp, st := .xfer, pos := 0#8 }

/-- The session's end: `err <- f ; st <- DONE` (R96, R122). -/
def State.endSession (f : ErrFlag) (s : State) : State := { s with err := f, st := .done }

/-- The registers an accepted `ARM` writes (R94). The sink space stays what it is, so the new session starts on the bytes an
earlier one left at the same offsets: whether the destination armed is the same region or a new one (R112) is left open.
DESIGN CHOICE (log entry 14). -/
def State.openSession (c : Nat) (s : State) : State :=
  { s with exp := Config.firstBlock, cur := 0, cap := c, err := .none, pos := 0#8, st := .await }

/-- The consumer has been notified: `st <- IDLE` (R99). -/
def State.release (s : State) : State := { s with st := .idle }

/-- The nine registers at their reset values; everything outside the engine is left as it is (R142, R143). -/
def State.resetRegisters (s : State) : State :=
  { s with st := .idle, pos := 0#8, exp := 1#8, blk := 0#8, dup := false, sum := 0#8, cur := 0, cap := 0, err := .none }

/-- The events still to come. -/
def State.setInput (es : List Event) (s : State) : State := { s with input := es }

/-- The outputs still to be delivered. -/
def State.setPend (os : List Output) (s : State) : State := { s with pend := os }

/-- An output has reached its receiver and an observer has seen it (R9, R47). -/
def State.record (o : Output) (s : State) : State := { s with out := s.out ++ [o] }

/-- The Sink stores a byte (R33, R110). -/
def State.store (off : Nat) (v : Byte) (s : State) : State := { s with dest := s.dest.write off v }

/-! ## Defects: the engine's exceptions -/

/-- `raise D`. A local defect is exactly `emit Tx(NAK); pos <- 0` (R121); Overflow is exactly `emit Tx(NAK);
err <- Overflow; st <- DONE; pos <- 0` (R122). Nothing else is saved, masked or counted (R129); the return from a local
defect is the next byte at `pos` = 0, from Overflow it is CPL and then ARM (R130). -/
def State.raise (d : Defect) (s : State) : State :=
  match d with
  | .framingError => (s.emit (.tx Config.NAK)).setPos 0#8
  | .checksumError => (s.emit (.tx Config.NAK)).setPos 0#8
  | .timeoutDuringFrame => (s.emit (.tx Config.NAK)).setPos 0#8
  | .overflow => ((s.emit (.tx Config.NAK)).endSession .overflow).setPos 0#8

/-- An ACK that ends a frame attempt: `emit Tx(ACK); pos <- 0` (R83, R85). -/
def State.acknowledge (s : State) : State := (s.emit (.tx Config.ACK)).setPos 0#8

/-! ## Taking a byte -/

/-- An `RX` instruction: it runs only while a read is pending (R100) and only at its own positions (R61). -/
def receiving (i : Instr) (s : State) (t : State) : Host.Outcome State Fault Refusal :=
  if readPending s then
    if i.standsAt s.pos then .next t else .refused .notAtPosition
  else .refused .notEnabled

end Sys2Proof.Machine
end

