-- ==== Sys2Proof/Machine/Parser.lean ====
section
/-! DEFINITION. The Frame Parser's instructions (`40_frame_parser.md`): the byte at `pos` = 0, 1, 2 and 3..130. -/

namespace Sys2Proof.Machine

/-- DATA.SOH: `pos <- 1` (R72). -/
def execDataSoh (s : State) : Host.Outcome State Fault Refusal := receiving .dataSoh s (s.setPos 1#8)

/-- DATA.BLK (R74): the expected number, the number just accepted, or FramingError. -/
def execDataBlk (b : Byte) (s : State) : Host.Outcome State Fault Refusal :=
  receiving (.dataBlk b) s <|
    if hdrNew s b then s.takeNumber b false
    else if hdrDup s b then s.takeNumber b true
    else s.raise .framingError

/-- DATA.CMP (R75): the complement, or FramingError. -/
def execDataCmp (b : Byte) (s : State) : Host.Outcome State Fault Refusal :=
  receiving (.dataCmp b) s <| if cmpOk s b then s.startPayload else s.raise .framingError

/-- DATA.PAY (R76): the byte is summed, and written to the staging area where it belongs to a new block that fits. -/
def execDataPay (b : Byte) (s : State) : Host.Outcome State Fault Refusal :=
  receiving (.dataPay b) s <|
    if staged s then (s.emit (.sinkWrite (stagingOffset s.cur s.pos) b)).takePayload b else s.takePayload b

/-- ILLEGAL: FramingError (R73). -/
def execIllegal (b : Byte) (s : State) : Host.Outcome State Fault Refusal :=
  receiving (.illegal b) s (s.raise .framingError)

end Sys2Proof.Machine
end

