-- ==== Sys2Proof/Machine/Response.lean ====
section
/-! DEFINITION. The RESP family (ACK, NAK) and the delivery of a step's outputs (`00_scope.md` R8, `20_memory.md` R47,
`42_sequencer.md` R103 to R105). -/

namespace Sys2Proof.Machine

/-- ACK: the byte 0x06 is written to the transmit stream (R54, R103). -/
def execAck (s : State) : Host.Outcome State Fault Refusal := .next (s.record (.tx Config.ACK))

/-- NAK: the byte 0x15 is written to the transmit stream (R54, R103). -/
def execNak (s : State) : Host.Outcome State Fault Refusal := .next (s.record (.tx Config.NAK))

/-- One output delivered: a response byte runs its instruction, a sink write is stored (R110), a completion and a
rejection reach the consumer (R114, R123). -/
def deliver (o : Output) (s : State) : Host.Outcome State Fault Refusal :=
  match o with
  | .tx b =>
    match decodeResponse b with
    | .ok .ack => execAck s
    | .ok .nak => execNak s
    | _ => .refused .notAResponse
  | .sinkWrite off v => .next ((s.store off v).record (.sinkWrite off v))
  | .complete len flag => .next (s.record (.complete len flag))
  | .armRejected => .next (s.record .armRejected)

/-- Outputs delivered in list order (R47). -/
def deliverAll : List Output → State → Host.Outcome State Fault Refusal
  | [], s => .next s
  | o :: os, s => andThen (deliver o s) (deliverAll os)

/-- Every pending output delivered. -/
def drain (s : State) : Host.Outcome State Fault Refusal := deliverAll s.pend (s.setPend [])

end Sys2Proof.Machine
end

