-- ==== Sys2Proof/Machine/Validator.lean ====
section
/-! DEFINITION. The Block Validator's instruction (`41_block_validator.md`): the byte at `pos` = 131. -/

namespace Sys2Proof.Machine

/-- What follows each class: ChecksumError (R82), Duplicate (R83), Overflow (R84), Accept (R85). -/
def State.conclude (c : BlockClass) (s : State) : State :=
  match c with
  | .checksumError => s.raise .checksumError
  | .duplicate => s.acknowledge
  | .overflow => s.raise .overflow
  | .accept => s.commitBlock.acknowledge

/-- DATA.SUM: the checksum is compared and the block classified in the same step (R77, R81). -/
def execDataSum (b : Byte) (s : State) : Host.Outcome State Fault Refusal :=
  receiving (.dataSum b) s (s.conclude (classify s b))

end Sys2Proof.Machine
end

