-- ==== Sys2Proof/Machine/Frame.lean ====
section
/-! DEFINITION. The DATA row: a frame attempt, made of its five per-byte rows (`40_frame_parser.md` R70, R78;
`30_encoding.md` R64, R69). -/

namespace Sys2Proof.Machine

/-- One byte of a frame with the instruction it is at its place. -/
structure FrameByte where
  byte : Byte
  run : State → Host.Outcome State Fault Refusal

/-- A frame as its per-byte instructions, in the order of the wire (R37, R52). -/
def frameBytes (n c : Byte) (payload : List Byte) (sum : Byte) : List FrameByte :=
  ⟨Config.SOH, execDataSoh⟩ :: ⟨n, execDataBlk n⟩ :: ⟨c, execDataCmp c⟩ ::
    (payload.map (fun b => ⟨b, execDataPay b⟩) ++ [⟨sum, execDataSum sum⟩])

/-- The bytes taken one by one, the outputs of each delivered before the next is taken (R104). The attempt ends when
`pos` is 0 again; the bytes it has not taken stay in the receive stream, in front of what else is there (R34, R78). -/
def attempt : List FrameByte → State → Host.Outcome State Fault Refusal
  | [], s => .next s
  | f :: rest, s =>
    andThen (f.run s) fun s₁ =>
      andThen (drain s₁) fun s₂ =>
        if s₂.pos.toNat = 0 then .next (s₂.setInput (rest.map (fun g => .rx g.byte) ++ s₂.input))
        else attempt rest s₂

/-- DATA: the frame attempt whose bytes are the operand's (R52, R69, R78). It is not one step of the engine, which takes a
frame a byte a step; it is those steps in a row (log entry 6). -/
def execData (n c : Byte) (payload : List Byte) (sum : Byte) (s : State) : Host.Outcome State Fault Refusal :=
  attempt (frameBytes n c payload sum) s

end Sys2Proof.Machine
end

