-- ==== Sys2Proof/Machine/Sequencer.lean ====
section
/-! DEFINITION. The protocol sequencer's instructions (`42_sequencer.md`) and reset (`70_reset_and_hazards.md`). -/

namespace Sys2Proof.Machine

/-- EOT: `emit Tx(ACK); err <- None; st <- DONE` (R71, R96). -/
def execEot (s : State) : Host.Outcome State Fault Refusal :=
  receiving .eot s ((s.emit (.tx Config.ACK)).endSession .none)

/-- TMO: TimeoutDuringFrame at any `pos`, the keepalive among them (R79, R97, R98). -/
def execTmo (s : State) : Host.Outcome State Fault Refusal :=
  receiving .tmo s (s.raise .timeoutDuringFrame)

/-- ARM: accepted in IDLE (R94), rejected elsewhere (R95). -/
def execArm (c : Nat) (s : State) : Host.Outcome State Fault Refusal :=
  .next (if s.st = .idle then s.openSession c else s.emit .armRejected)

/-- CPL: `emit Complete(cur, err); st <- IDLE`, in DONE only (R99, R101). -/
def execCpl (s : State) : Host.Outcome State Fault Refusal :=
  if s.st = .done then .next (s.emit (.complete s.cur s.err)).release else .refused .notEnabled

/-- RST: the nine registers to their reset values, in every state (R142). -/
def execRst (s : State) : Host.Outcome State Fault Refusal := .next s.resetRegisters

end Sys2Proof.Machine
end

