-- ==== Sys2Proof/Machine/Dispatch.lean ====
section
/-! DEFINITION. One arm per instruction, each one call of its meaning. -/

namespace Sys2Proof.Machine

def exec (i : Instr) (s : State) : Host.Outcome State Fault Refusal :=
  match i with
  | .data n c p k => Sys2Proof.Machine.execData n c p k s
  | .dataSoh => Sys2Proof.Machine.execDataSoh s
  | .dataBlk n => Sys2Proof.Machine.execDataBlk n s
  | .dataCmp c => Sys2Proof.Machine.execDataCmp c s
  | .dataPay v => Sys2Proof.Machine.execDataPay v s
  | .dataSum k => Sys2Proof.Machine.execDataSum k s
  | .eot => Sys2Proof.Machine.execEot s
  | .illegal b => Sys2Proof.Machine.execIllegal b s
  | .ack => Sys2Proof.Machine.execAck s
  | .nak => Sys2Proof.Machine.execNak s
  | .tmo => Sys2Proof.Machine.execTmo s
  | .arm c => Sys2Proof.Machine.execArm c s
  | .cpl => Sys2Proof.Machine.execCpl s
  | .rst => Sys2Proof.Machine.execRst s

end Sys2Proof.Machine
end

