-- ==== Sys2Proof/Machine/Cycle.lean ====
section
/-! DEFINITION. Taking an event, one whole step, and where the host's words are placed (`00_scope.md` R8). -/

namespace Sys2Proof.Machine

/-- The next event, decoded where the parser stands, and the events after it. With no event offered the engine waits
(R140). -/
def fetch (s : State) : Host.Outcome (Instr × List Event) Fault Refusal :=
  match s.input with
  | [] => .refused .noEvent
  | e :: rest =>
    match decodeEvent s.pos e with
    | .ok i => .next (i, rest)
    | .error _ => .fault .positionOutOfRange

/-- One step: one event is taken, its instruction runs, and its outputs are delivered before the next event is taken
(R8, R104). Outputs still to be delivered come first (R34). -/
def cycle (s : State) : Host.Outcome State Fault Refusal :=
  match s.pend with
  | [] =>
    match fetch s with
    | .next (i, rest) => andThen (exec i (s.setInput rest)) drain
    | .fault r => .fault r
    | .refused r => .refused r
  | _ :: _ => drain s

/-- A read pending at `pos` = 0 with nothing left to deliver: what taking a byte as the first of a frame attempt needs
(R34, R60). An open session stays in its state. -/
def State.atFrameStart (s : State) : State :=
  { s with st := if sessionOpen s then s.st else .await, pos := 0#8, pend := [] }

/-- A word of the opcode table put where the next step takes it: a response byte among the outputs to deliver, a received
byte or a whole frame in front of the other events (log entry 7). -/
def placeWord (s : State) (nbits w : Nat) : State :=
  if nbits ≤ 8 then
    match decodeResponse (BitVec.ofNat 8 w) with
    | .ok _ => s.setPend [.tx (BitVec.ofNat 8 w)]
    | .error _ => s.atFrameStart.setInput (.rx (BitVec.ofNat 8 w) :: s.input)
  else s.atFrameStart.setInput ((bytesOfNat Config.frameLen w).map .rx ++ s.input)

end Sys2Proof.Machine
end

