-- ==== Sys2Proof/Machine/Step.lean ====
section
/-! DEFINITION. The step and the host's placing of a word, both by `Machine/Cycle.lean`. -/

namespace Sys2Proof.Machine

/-- One step of the machine. -/
def step (s : State) : Host.Outcome State Fault Refusal := cycle s

/-- The state with a word of the opcode table placed where `step` takes its next instruction. -/
def State.withFetchWord (s : State) (nbits w : Nat) : State := placeWord s nbits w

end Sys2Proof.Machine
end

