-- ==== Sys2Proof/Machine/Stimulus.lean ====
section
/-! DEFINITION. The stimulus notation of `30_encoding.md` rules R67 and R68: what a line of it stands for, as events. It is
the spec's way to write inputs down, not part of the hardware (D29). -/

namespace Sys2Proof.Machine

/-- The lines of R67 and the pseudo-instructions of R68. -/
inductive Stimulus where
  | rst
  | arm (c : Nat)
  | cpl
  | tmo
  /-- `B xx`, one raw byte. -/
  | b (x : Byte)
  | eot
  /-- `FRAME n P`: well-formed and checksum-valid. -/
  | frame (n : Byte) (p : List Byte)
  /-- `FRAME n P sum=s`: the checksum byte is forced. -/
  | frameSum (n : Byte) (p : List Byte) (s : Byte)
  /-- `FRAME n P cmp=k`: the complement is forced. -/
  | frameCmp (n : Byte) (p : List Byte) (k : Byte)
  /-- `HDR n`: the three header bytes only. -/
  | hdr (n : Byte)
  /-- `PART n P m`: the first `m` bytes of `FRAME n P`. -/
  | part (n : Byte) (p : List Byte) (m : Nat)
  deriving DecidableEq, Repr

/-- The well-formed, checksum-valid frame with a block number and a payload (R52, R57, R59, R68). -/
def goodFrame (n : Byte) (p : List Byte) : Instr := .data n (complementOf n) p (checksumOf p)

/-- The raw bytes of a frame as received bytes. -/
def received (bytes : List Byte) : List Event := bytes.map .rx

/-- The expansion of a line (R67, R68). -/
def Stimulus.events : Stimulus → List Event
  | .rst => [.rst]
  | .arm c => [.arm c]
  | .cpl => [.cpl]
  | .tmo => [.tmo]
  | .b x => [.rx x]
  | .eot => [.rx Config.EOT]
  | .frame n p => received (encode (goodFrame n p)).bytes
  | .frameSum n p s => received (encode (.data n (complementOf n) p s)).bytes
  | .frameCmp n p k => received (encode (.data n k p (checksumOf p))).bytes
  | .hdr n => received [Config.SOH, n, complementOf n]
  | .part n p m => received ((encode (goodFrame n p)).bytes.take m)

end Sys2Proof.Machine
end

