-- ==== Sys2Proof/Safety.lean ====
section
/-! DEFINITION. The terms claims are made in: what an observer sees, a run, the invariants of `10_state.md` rule R31, and
the transition table of `42_sequencer.md` rule R102 written down on its own. -/

namespace Sys2Proof.Machine

/-! ## What an observer sees (R9) -/

/-- The transmit stream (R35). -/
def State.transmitted (s : State) : List Byte :=
  s.out.filterMap fun o => match o with
    | .tx b => some b
    | .sinkWrite _ _ => none
    | .complete _ _ => none
    | .armRejected => none

/-- The completions delivered (R114). -/
def State.completions (s : State) : List (Nat × ErrFlag) :=
  s.out.filterMap fun o => match o with
    | .complete len flag => some (len, flag)
    | .tx _ => none
    | .sinkWrite _ _ => none
    | .armRejected => none

/-- What one delivered output does outside the engine. -/
def State.perform (s : State) (o : Output) : State :=
  match o with
  | .sinkWrite off v => (s.store off v).record (.sinkWrite off v)
  | .tx b => s.record (.tx b)
  | .complete len flag => s.record (.complete len flag)
  | .armRejected => s.record .armRejected

/-- What a step's outputs do, in list order (R47). -/
def State.performAll (s : State) (os : List Output) : State := os.foldl State.perform s

/-- The sink space after outputs are delivered in list order: the sink writes stored one after the other (R43, R47). -/
def Memory.putAll (m : Memory) : List Output → Memory
  | [] => m
  | .sinkWrite off v :: os => Memory.putAll (m.write off v) os
  | .tx _ :: os => Memory.putAll m os
  | .complete _ _ :: os => Memory.putAll m os
  | .armRejected :: os => Memory.putAll m os

/-- The outputs the engine can emit: a response byte is ACK or NAK (R35). -/
def deliverable : Output → Bool
  | .tx b => b == Config.ACK || b == Config.NAK
  | .sinkWrite _ _ => true
  | .complete _ _ => true
  | .armRejected => true

/-! ## Runs -/

/-- `n` steps, stopping at the first fault or refusal. -/
def runSteps : Nat → State → Host.Outcome State Fault Refusal
  | 0, s => .next s
  | n + 1, s => andThen (step s) (runSteps n)

/-- Instructions run in a row, the outputs of each delivered before the next (R104). -/
def runInstrs : List Instr → State → Host.Outcome State Fault Refusal
  | [], s => .next s
  | i :: is, s => andThen (exec i s) fun t => andThen (drain t) (runInstrs is)

/-- The state with one more event offered, behind the others. -/
def State.offer (s : State) (e : Event) : State := { s with input := s.input ++ [e] }

/-- A run over a list of events, each offered when the one before has been taken. -/
def runEvents : List Event → State → Host.Outcome State Fault Refusal
  | [], s => .next s
  | e :: es, s => andThen (step (s.offer e)) (runEvents es)

/-- An endless run: the environment goes on for ever, `env k` being the events it offers next, and the engine takes them
all. -/
def EndlessRun (env : Nat → List Event) (run : Nat → State) : Prop :=
  ∀ k, runEvents (env k) (run k) = .next (run (k + 1))

/-- The events of one defective frame attempt, or of a read that times out, in front of an engine whose session stands as in
`s` (R106: "an environment that only ever delivers defective frames or timeouts"). -/
inductive Defective (s : State) : List Event → Prop where
  /-- An illegal first byte (R73). -/
  | illegal (b : Byte) (h : (Instr.illegal b).wellFormed = true) : Defective s [.rx b]
  /-- A block number that is neither the expected one nor a duplicate (R74). -/
  | wrongNumber (n : Byte) (h : n ≠ s.exp) (hd : s.st = .xfer → n ≠ s.exp - 1#8) : Defective s [.rx 0x01#8, .rx n]
  /-- A complement that is not the block number's (R75). -/
  | wrongComplement (n c : Byte) (h : n = s.exp ∨ s.st = .xfer ∧ n = s.exp - 1#8) (hc : c ≠ 255#8 - n) :
      Defective s [.rx 0x01#8, .rx n, .rx c]
  /-- A whole frame with a wrong checksum (R82). -/
  | wrongChecksum (n : Byte) (p : List Byte) (k : Byte) (h : n = s.exp ∨ s.st = .xfer ∧ n = s.exp - 1#8) (hp : p.length = 128)
      (hk : k ≠ checksumOf p) : Defective s ((encode (.data n (255#8 - n) p k)).bytes.map .rx)
  /-- A timeout after the first `m` bytes of a frame, none of them wrong; with `m` = 0 the read between frames (R97). -/
  | timeout (n : Byte) (p : List Byte) (k : Byte) (m : Nat) (h : n = s.exp ∨ s.st = .xfer ∧ n = s.exp - 1#8)
      (hp : p.length = 128) (hm : m < 132) :
      Defective s (((encode (.data n (255#8 - n) p k)).bytes.take m).map .rx ++ [.tmo])

/-- Well-formed, checksum-valid frames with rising block numbers from `n` (R89). -/
def framesFrom (n : Byte) : List (List Byte) → List Instr
  | [] => []
  | p :: ps => goodFrame n p :: framesFrom (successor n) ps

/-! ## Invariants -/

/-- What holds between any two steps of a run (R31, R17, R32, R35, R90). -/
structure Inv (s : State) : Prop where
  /-- Every output of a step is delivered with the step (R8). -/
  delivered : s.pend = []
  /-- R31 (vi). -/
  posRange : s.pos.toNat ≤ 131
  /-- R31 (vi). -/
  posClosed : sessionOpen s = false → s.pos = 0#8
  /-- R31 (ii). -/
  curBlocks : s.cur % 128 = 0
  /-- R31 (iii), with `k = cur / 128`. -/
  expCounts : s.exp = BitVec.ofNat 8 (1 + s.cur / 128)
  /-- R31 (iv). -/
  awaitFresh : s.st = .await → s.cur = 0
  /-- R31 (v). -/
  xferBegun : s.st = .xfer → 128 ≤ s.cur
  /-- R31 (vii). -/
  dupInXfer : 2 ≤ s.pos.toNat → s.dup = true → s.st = .xfer
  /-- R17. -/
  blkKnown : 2 ≤ s.pos.toNat → s.blk = if s.dup then predecessor s.exp else s.exp
  /-- R31 (ix). -/
  errClosed : s.err = .overflow → (s.st = .done ∨ s.st = .idle) ∧ s.cap < 128
  /-- `cur + cap = C < 2^W`: nothing wraps (R31 (i), R90). -/
  roomBounded : s.cur + s.cap < 2 ^ Config.W
  /-- The events offered are ones the interface can express: an `ARM`'s operand has W bits (R65, 93 E1). -/
  offered : ∀ e ∈ s.input, e.wellFormed = true
  /-- The sink space is in canonical form. -/
  destWf : s.dest.wf
  /-- Only ACK and NAK are ever transmitted (R35). -/
  sentResponses : ∀ b ∈ s.transmitted, b = Config.ACK ∨ b = Config.NAK

/-- The payload bytes of the frame being parsed, after a step: emptied when a complement byte is taken, lengthened by each
payload byte (R76). A ghost of the claims; the engine holds no payload (R13). -/
def stagedAfter (bytes : List Byte) (s : State) : List Byte :=
  match s.input with
  | .rx b :: _ =>
    if s.pos.toNat = 2 then []
    else if 3 ≤ s.pos.toNat ∧ s.pos.toNat ≤ 130 then bytes ++ [b]
    else bytes
  | _ => bytes

/-- While a payload is being read, `bytes` are the bytes read so far: they are counted by `pos`, summed in `sum`, and, for a
new block that fits, they stand in the staging area (R15, R19, R44, R76). -/
structure Staging (bytes : List Byte) (s : State) : Prop where
  counted : 3 ≤ s.pos.toNat → bytes.length + 3 = s.pos.toNat
  summed : 3 ≤ s.pos.toNat → s.sum = checksumOf bytes
  stored : 3 ≤ s.pos.toNat → staged s = true →
    ∀ k, (h : k < bytes.length) → s.dest.read (s.cur + k) = some bytes[k]

/-! ## The transition table of R102 -/

/-- One row of the table: in state `s`, the event has the outputs and leads to the state given. A pair of state and event
that the table calls "not enabled" has no row. -/
inductive TableRow : State → Event → List Output → State → Prop where
  | reset (s : State) : TableRow s .rst []
      { s with st := .idle, pos := 0#8, exp := 1#8, blk := 0#8, dup := false, sum := 0#8, cur := 0, cap := 0, err := .none }
  | armAccepted (s : State) (c : Nat) (h : s.st = .idle) : TableRow s (.arm c) []
      { s with st := .await, pos := 0#8, exp := 1#8, cur := 0, cap := c, err := .none }
  | armRejected (s : State) (c : Nat) (h : s.st = .await ∨ s.st = .xfer ∨ s.st = .done) :
      TableRow s (.arm c) [.armRejected] s
  | completion (s : State) (h : s.st = .done) : TableRow s .cpl [.complete s.cur s.err] { s with st := .idle }
  | timeout (s : State) (h : s.st = .await ∨ s.st = .xfer) : TableRow s .tmo [.tx 0x15#8] { s with pos := 0#8 }
  | eot (s : State) (h : s.st = .await ∨ s.st = .xfer) (hp : s.pos = 0#8) :
      TableRow s (.rx 0x04#8) [.tx 0x06#8] { s with st := .done, err := .none }
  | soh (s : State) (h : s.st = .await ∨ s.st = .xfer) (hp : s.pos = 0#8) :
      TableRow s (.rx 0x01#8) [] { s with pos := 1#8 }
  | illegal (s : State) (b : Byte) (h : s.st = .await ∨ s.st = .xfer) (hp : s.pos = 0#8) (h1 : b ≠ 0x01#8) (h4 : b ≠ 0x04#8) :
      TableRow s (.rx b) [.tx 0x15#8] { s with pos := 0#8 }
  | newNumber (s : State) (b : Byte) (h : s.st = .await ∨ s.st = .xfer) (hp : s.pos = 1#8) (hb : b = s.exp) :
      TableRow s (.rx b) [] { s with pos := 2#8, blk := b, dup := false }
  | duplicateNumber (s : State) (b : Byte) (h : s.st = .xfer) (hp : s.pos = 1#8) (hb : b = s.exp - 1#8) :
      TableRow s (.rx b) [] { s with pos := 2#8, blk := b, dup := true }
  | wrongNumberAwait (s : State) (b : Byte) (h : s.st = .await) (hp : s.pos = 1#8) (hb : b ≠ s.exp) :
      TableRow s (.rx b) [.tx 0x15#8] { s with pos := 0#8 }
  | wrongNumberXfer (s : State) (b : Byte) (h : s.st = .xfer) (hp : s.pos = 1#8) (hb : b ≠ s.exp) (hd : b ≠ s.exp - 1#8) :
      TableRow s (.rx b) [.tx 0x15#8] { s with pos := 0#8 }
  | complement (s : State) (b : Byte) (h : s.st = .await ∨ s.st = .xfer) (hp : s.pos = 2#8) (hb : b = 255#8 - s.blk) :
      TableRow s (.rx b) [] { s with pos := 3#8, sum := 0#8 }
  | wrongComplement (s : State) (b : Byte) (h : s.st = .await ∨ s.st = .xfer) (hp : s.pos = 2#8) (hb : b ≠ 255#8 - s.blk) :
      TableRow s (.rx b) [.tx 0x15#8] { s with pos := 0#8 }
  | payloadWritten (s : State) (b : Byte) (h : s.st = .await ∨ s.st = .xfer) (hp : 3 ≤ s.pos.toNat ∧ s.pos.toNat ≤ 130)
      (hd : s.dup = false) (hc : 128 ≤ s.cap) :
      TableRow s (.rx b) [.sinkWrite (s.cur + (s.pos.toNat - 3)) b]
        { s with pos := s.pos + 1#8, sum := s.sum + b }
  | payloadNotWritten (s : State) (b : Byte) (h : s.st = .await ∨ s.st = .xfer) (hp : 3 ≤ s.pos.toNat ∧ s.pos.toNat ≤ 130)
      (hd : s.dup = true ∨ s.cap < 128) :
      TableRow s (.rx b) [] { s with pos := s.pos + 1#8, sum := s.sum + b }
  | checksumError (s : State) (b : Byte) (h : s.st = .await ∨ s.st = .xfer) (hp : s.pos = 131#8) (hb : b ≠ s.sum) :
      TableRow s (.rx b) [.tx 0x15#8] { s with pos := 0#8 }
  | duplicate (s : State) (b : Byte) (h : s.st = .xfer) (hp : s.pos = 131#8) (hb : b = s.sum) (hd : s.dup = true) :
      TableRow s (.rx b) [.tx 0x06#8] { s with pos := 0#8 }
  | overflow (s : State) (b : Byte) (h : s.st = .await ∨ s.st = .xfer) (hp : s.pos = 131#8) (hb : b = s.sum)
      (hd : s.dup = false) (hc : s.cap < 128) :
      TableRow s (.rx b) [.tx 0x15#8] { s with st := .done, pos := 0#8, err := .overflow }
  | accept (s : State) (b : Byte) (h : s.st = .await ∨ s.st = .xfer) (hp : s.pos = 131#8) (hb : b = s.sum)
      (hd : s.dup = false) (hc : 128 ≤ s.cap) :
      TableRow s (.rx b) [.tx 0x06#8]
        { s with st := .xfer, pos := 0#8, cur := s.cur + 128, cap := s.cap - 128, exp := s.exp + 1#8 }

end Sys2Proof.Machine
end

