-- ==== Sys2Proof/Certificates/Slice0/Obligations.lean ====
section
/-! DEFINITION. The statements for the provers. A docstring names the rule or the spec's sentence a statement formalises,
and says where a clause is a decision of the spec or the model's own choice. -/

open Sys2Proof Sys2Proof.Machine

/-! ## The instructions: results, frames and completion

Each result is an equality of the whole next state, so it is the instruction's frame too: a register, a list or a byte of the
destination that the right side does not update is unchanged. -/

/-- R72: the start marker moves `pos` to 1 and does nothing else, in AWAIT and XFER alike and whatever `cap` is. -/
def Obligations.StartMarkerMovesToBlockNumber : Prop :=
  ∀ s : State, (s.st = .await ∨ s.st = .xfer) → s.pend = [] → s.pos = 0#8 →
    exec .dataSoh s = .next { s with pos := 1#8 }

/-- `40_frame_parser.md` section 3 (D7, C1): the expected number, the predecessor in XFER, or FramingError. -/
def Obligations.BlockNumberIsNewDuplicateOrRejected : Prop :=
  ∀ (s : State) (b : Byte), (s.st = .await ∨ s.st = .xfer) → s.pend = [] → s.pos = 1#8 →
    exec (.dataBlk b) s = .next
      (if b = s.exp then { s with blk := b, dup := false, pos := 2#8 }
       else if s.st = .xfer ∧ b = s.exp - 1#8 then { s with blk := b, dup := true, pos := 2#8 }
       else { s with pos := 0#8, pend := [.tx 0x15#8] })

/-- `40_frame_parser.md` section 4 (D26 for clearing `sum`): the complement of `blk` opens the payload, any other byte is a
FramingError. -/
def Obligations.ComplementOpensPayloadOrIsRejected : Prop :=
  ∀ (s : State) (b : Byte), (s.st = .await ∨ s.st = .xfer) → s.pend = [] → s.pos = 2#8 →
    exec (.dataCmp b) s = .next
      (if b.toNat = 255 - s.blk.toNat then { s with sum := 0#8, pos := 3#8 } else { s with pos := 0#8, pend := [.tx 0x15#8] })

/-- `40_frame_parser.md` section 5 (D9, D10, D11): a payload byte is summed, and written at `cur + (pos - 3)` for a new block
that fits; nothing else changes, no byte of the destination before the write is delivered. -/
def Obligations.PayloadByteIsSummedAndStaged : Prop :=
  ∀ (s : State) (b : Byte), (s.st = .await ∨ s.st = .xfer) → s.pend = [] → 3 ≤ s.pos.toNat → s.pos.toNat ≤ 130 →
    exec (.dataPay b) s = .next
      { s with
        sum := s.sum + b
        pos := s.pos + 1#8
        pend := if s.dup = false ∧ 128 ≤ s.cap then [.sinkWrite (s.cur + (s.pos.toNat - 3)) b] else [] }

/-- R82: a checksum byte that differs from `sum` draws one NAK, whatever the block is; only `pos` is written. -/
def Obligations.WrongChecksumIsNaked : Prop :=
  ∀ (s : State) (b : Byte), (s.st = .await ∨ s.st = .xfer) → s.pend = [] → s.pos = 131#8 → b ≠ s.sum →
    exec (.dataSum b) s = .next { s with pos := 0#8, pend := [.tx 0x15#8] }

/-- R83: a duplicate with a right checksum draws one ACK, whatever `cap` is; only `pos` is written. -/
def Obligations.DuplicateIsAcknowledgedWithoutCommit : Prop :=
  ∀ (s : State) (b : Byte), (s.st = .await ∨ s.st = .xfer) → s.pend = [] → s.pos = 131#8 → b = s.sum → s.dup = true →
    exec (.dataSum b) s = .next { s with pos := 0#8, pend := [.tx 0x06#8] }

/-- `41_block_validator.md` section 1, Overflow (D11, D12, D13): a valid new block that does not fit draws one NAK and ends
the session with the flag; `exp`, `cur` and `cap` are unchanged. -/
def Obligations.BlockThatDoesNotFitOverflows : Prop :=
  ∀ (s : State) (b : Byte), (s.st = .await ∨ s.st = .xfer) → s.pend = [] → s.pos = 131#8 → b = s.sum → s.dup = false →
    s.cap < 128 →
    exec (.dataSum b) s = .next { s with err := .overflow, st := .done, pos := 0#8, pend := [.tx 0x15#8] }

/-- `41_block_validator.md` section 1, Accept: a valid new block that fits is committed and acknowledged. (R85 as a whole,
with the bytes in the destination, is `Obligations.GoodFrameIsAccepted`.) -/
def Obligations.BlockThatFitsIsCommitted : Prop :=
  ∀ (s : State) (b : Byte), (s.st = .await ∨ s.st = .xfer) → s.pend = [] → s.pos = 131#8 → b = s.sum → s.dup = false →
    128 ≤ s.cap →
    exec (.dataSum b) s = .next
      { s with cur := s.cur + 128, cap := s.cap - 128, exp := s.exp + 1#8, st := .xfer, pos := 0#8, pend := [.tx 0x06#8] }

/-- R96: EOT at `pos` = 0 draws one ACK, clears `err` and ends the session; the engine stops reading. -/
def Obligations.EotIsAcknowledgedAndEndsSession : Prop :=
  ∀ s : State, (s.st = .await ∨ s.st = .xfer) → s.pend = [] → s.pos = 0#8 →
    exec .eot s = .next { s with err := .none, st := .done, pend := [.tx 0x06#8] } ∧
      ∀ t, exec .eot s = .next t → readPending t = false

/-- `40_frame_parser.md` section 2, the illegal first byte (D6, D22): every byte but 0x01 and 0x04 draws one NAK and changes
nothing else. -/
def Obligations.IllegalFirstByteIsNaked : Prop :=
  ∀ (s : State) (b : Byte), (Instr.illegal b).wellFormed = true → (s.st = .await ∨ s.st = .xfer) → s.pend = [] → s.pos = 0#8 →
    exec (.illegal b) s = .next { s with pend := [.tx 0x15#8] }

/-- `42_sequencer.md` section 2, TMO (D19 for XFER at `pos` = 0): a timeout at any `pos` draws one NAK and writes `pos`
only. -/
def Obligations.TimeoutAbandonsFrameWithNak : Prop :=
  ∀ s : State, (s.st = .await ∨ s.st = .xfer) → s.pend = [] →
    exec .tmo s = .next { s with pos := 0#8, pend := [.tx 0x15#8] }

/-- `42_sequencer.md` section 2, ARM accepted (D25): in IDLE a session opens with nothing committed, and no byte is sent. -/
def Obligations.ArmInIdleOpensSession : Prop :=
  ∀ (s : State) (c : Nat), s.st = .idle →
    exec (.arm c) s = .next { s with exp := 1#8, cur := 0, cap := c, err := .none, pos := 0#8, st := .await }

/-- `42_sequencer.md` section 2, ARM rejected (D14): outside IDLE nothing changes and `ArmRejected` is emitted. -/
def Obligations.ArmElsewhereIsRejected : Prop :=
  ∀ (s : State) (c : Nat), s.st ≠ .idle → exec (.arm c) s = .next { s with pend := s.pend ++ [.armRejected] }

/-- `42_sequencer.md` section 2, CPL (D14): in DONE the completion carries `cur` and `err`, and the engine is IDLE. -/
def Obligations.CompletionReportsCursorAndFlag : Prop :=
  ∀ s : State, s.st = .done → exec .cpl s = .next { s with st := .idle, pend := s.pend ++ [.complete s.cur s.err] }

/-- `70_reset_and_hazards.md` section 1 (D18 for eight of the values): in every state RST gives the nine registers their
reset values and touches nothing outside the engine. -/
def Obligations.ResetWritesTheNineRegisters : Prop :=
  ∀ s : State, exec .rst s = .next
    { s with st := .idle, pos := 0#8, exp := 1#8, blk := 0#8, dup := false, sum := 0#8, cur := 0, cap := 0, err := .none }

/-- The two response instructions, as the model renders them (log entry 5): each puts its byte (R54) on the transmit
stream. -/
def Obligations.ResponseInstructionsTransmitTheirByte : Prop :=
  ∀ s : State, exec .ack s = .next { s with out := s.out ++ [.tx 0x06#8] } ∧
    exec .nak s = .next { s with out := s.out ++ [.tx 0x15#8] }

/-- R100 and R101: a byte instruction, TMO and DATA are not enabled in IDLE and DONE, CPL is not enabled outside DONE. -/
def Obligations.EventsWithoutARuleAreNotEnabled : Prop :=
  (∀ (s : State) (i : Instr), (s.st = .idle ∨ s.st = .done) →
    (i = .tmo ∨ ∃ pos b, decodeRx pos b = .ok i) → exec i s = .refused .notEnabled) ∧
  (∀ (s : State) (n c k : Byte) (p : List Byte), (s.st = .idle ∨ s.st = .done) →
    exec (.data n c p k) s = .refused .notEnabled) ∧
  ∀ s : State, s.st ≠ .done → exec .cpl s = .refused .notEnabled

/-- R121 and R122: what `raise` means; after Overflow the engine stops reading. -/
def Obligations.RaiseMeansNakAndPositionZero : Prop :=
  (∀ (s : State) (d : Defect), d = .framingError ∨ d = .checksumError ∨ d = .timeoutDuringFrame →
    s.raise d = { s with pend := s.pend ++ [.tx 0x15#8], pos := 0#8 }) ∧
  ∀ s : State,
    s.raise .overflow = { s with pend := s.pend ++ [.tx 0x15#8], err := .overflow, st := .done, pos := 0#8 } ∧
      readPending (s.raise .overflow) = false

/-- Where the model stops and the spec gives no rule (log entries 3, 5 and 8): a byte instruction at another position than
its own, a received byte while `pos` is in 132..255, no event offered, a byte to transmit that is neither ACK nor NAK. -/
def Obligations.StopsOutsideTheRulesAreNamed : Prop :=
  (∀ (s : State) (i : Instr), (s.st = .await ∨ s.st = .xfer) → s.pend = [] → (∃ pos b, decodeRx pos b = .ok i) →
    i.standsAt s.pos = false → exec i s = .refused .notAtPosition) ∧
  (∀ (s : State) (n c k : Byte) (p : List Byte), (s.st = .await ∨ s.st = .xfer) → s.pend = [] → s.pos ≠ 0#8 →
    exec (.data n c p k) s = .refused .notAtPosition) ∧
  (∀ (s : State) (b : Byte) (rest : List Event), s.pend = [] → s.input = .rx b :: rest → 132 ≤ s.pos.toNat →
    step s = .fault .positionOutOfRange) ∧
  (∀ s : State, s.pend = [] → s.input = [] → step s = .refused .noEvent) ∧
  ∀ (s : State) (b : Byte) (os : List Output), s.pend = .tx b :: os → b ≠ 0x06#8 → b ≠ 0x15#8 →
    step s = .refused .notAResponse

/-! ## Whole frames (the DATA row) -/

/-- `40_frame_parser.md` section 7 and `42_sequencer.md` section 4: a well-formed DATA always completes: the attempt is over,
exactly one response has been sent, and the bytes it did not take are in front of the other events. -/
def Obligations.FrameAttemptAlwaysEndsWithOneResponse : Prop :=
  ∀ (s : State) (n c k : Byte) (p : List Byte), (Instr.data n c p k).wellFormed = true →
    (s.st = .await ∨ s.st = .xfer) → s.pend = [] → s.pos = 0#8 →
    ∃ t taken r, exec (.data n c p k) s = .next t ∧ t.pend = [] ∧ t.pos = 0#8 ∧ (r = 0x06#8 ∨ r = 0x15#8) ∧
      t.transmitted = s.transmitted ++ [r] ∧ (taken = 2 ∨ taken = 3 ∨ taken = 132) ∧
      t.input = ((encode (.data n c p k)).bytes.drop taken).map .rx ++ s.input

/-- `40_frame_parser.md` section 7, the bytes consumed (D6): a wrong block number ends the attempt after 2 bytes, a wrong
complement after 3, each with one NAK; the rest of the frame stays unread, and the destination is untouched. -/
def Obligations.HeaderDefectLeavesTheRestUnread : Prop :=
  ∀ (s : State) (n c k : Byte) (p : List Byte), (s.st = .await ∨ s.st = .xfer) → s.pend = [] → s.pos = 0#8 →
    (n ≠ s.exp → ¬ (s.st = .xfer ∧ n = s.exp - 1#8) →
      exec (.data n c p k) s = .next
        { s with out := s.out ++ [.tx 0x15#8], input := (c :: p ++ [k]).map .rx ++ s.input }) ∧
    ((n = s.exp ∨ s.st = .xfer ∧ n = s.exp - 1#8) → c ≠ 255#8 - n →
      exec (.data n c p k) s = .next
        { s with
          blk := n
          dup := n != s.exp
          out := s.out ++ [.tx 0x15#8]
          input := (p ++ [k]).map .rx ++ s.input })

/-- `41_block_validator.md` section 1 (Accept) with R59 and R110: a well-formed, checksum-valid frame with the expected number that fits is accepted: `cur`, `cap`,
`exp` and `st` move, one ACK follows the 128 writes, in the order of the payload, the destination holds the payload at the
old `cur` and everywhere else what it held, and no event is left unread. That a frame is one instruction is the model's
rendering (log entry 6), that its bytes are staged as they arrive is D10. -/
def Obligations.GoodFrameIsAccepted : Prop :=
  ∀ (s : State) (p : List Byte), p.length = 128 → (s.st = .await ∨ s.st = .xfer) → s.pend = [] → s.pos = 0#8 →
    128 ≤ s.cap →
    ∃ d, exec (goodFrame s.exp p) s = .next
        { s with
          blk := s.exp
          dup := false
          sum := checksumOf p
          cur := s.cur + 128
          cap := s.cap - 128
          exp := s.exp + 1#8
          st := .xfer
          dest := d
          out := s.out ++ (p.mapIdx fun k b => .sinkWrite (s.cur + k) b) ++ [.tx 0x06#8] } ∧
      (∀ k, (h : k < 128) → d.read (s.cur + k) = p[k]?) ∧
      ∀ a, (a < s.cur ∨ s.cur + 128 ≤ a) → d.read a = s.dest.read a

/-- `41_block_validator.md` section 1 (Duplicate) and R92: a frame with the number just accepted and a right checksum is
acknowledged and not written, whatever its payload is. -/
def Obligations.DuplicateFrameIsNotWrittenAgain : Prop :=
  ∀ (s : State) (p : List Byte), p.length = 128 → s.st = .xfer → s.pend = [] → s.pos = 0#8 →
    exec (goodFrame (s.exp - 1#8) p) s = .next
      { s with blk := s.exp - 1#8, dup := true, sum := checksumOf p, out := s.out ++ [.tx 0x06#8] }

/-- `41_block_validator.md` section 1 (Overflow; D11, D12, D13): a good new frame that does not fit is not written at all, and
ends the session. -/
def Obligations.FrameThatDoesNotFitIsNotWritten : Prop :=
  ∀ (s : State) (p : List Byte), p.length = 128 → (s.st = .await ∨ s.st = .xfer) → s.pend = [] → s.pos = 0#8 →
    s.cap < 128 →
    exec (goodFrame s.exp p) s = .next
      { s with
        blk := s.exp
        dup := false
        sum := checksumOf p
        err := .overflow
        st := .done
        out := s.out ++ [.tx 0x15#8] }

/-- `43_sink.md` section 3, residue (D10): a new frame with a wrong checksum that would fit leaves its payload in the staging
area; the session, the cursor and every other byte of the destination are as before. -/
def Obligations.CorruptFrameLeavesResidueOnlyInStaging : Prop :=
  ∀ (s : State) (p : List Byte) (k : Byte), p.length = 128 → k ≠ checksumOf p → (s.st = .await ∨ s.st = .xfer) →
    s.pend = [] → s.pos = 0#8 → 128 ≤ s.cap →
    ∃ t, exec (.data s.exp (255#8 - s.exp) p k) s = .next t ∧
      t = { s with blk := s.exp, dup := false, sum := checksumOf p, dest := t.dest, out := t.out } ∧
      t.transmitted = s.transmitted ++ [0x15#8] ∧
      (∀ j, j < 128 → t.dest.read (s.cur + j) = p[j]?) ∧
      ∀ a, (a < s.cur ∨ s.cur + 128 ≤ a) → t.dest.read a = s.dest.read a

/-- DATA is the engine's own byte steps in a row (log entry 6; `30_encoding.md` R64 and R69 for the five rows): running it is
running `step` once for each byte the attempt takes, 2, 3 or 132 of them, with the frame's bytes in front of the other
events. -/
def Obligations.FrameIsItsByteSteps : Prop :=
  ∀ (s : State) (n c k : Byte) (p : List Byte), (Instr.data n c p k).wellFormed = true →
    (s.st = .await ∨ s.st = .xfer) → s.pend = [] → s.pos = 0#8 →
    ∃ taken, (taken = 2 ∨ taken = 3 ∨ taken = 132) ∧
      runSteps taken { s with input := (encode (.data n c p k)).bytes.map .rx ++ s.input } = exec (.data n c p k) s

/-- `43_sink.md` section 3, what holds at `Complete` (an inference of the spec), and `70_reset_and_hazards.md` section 4: for
any payloads that fit, armed in IDLE and sent as good frames with rising numbers, then EOT and CPL: one ACK per block and one
for EOT, one completion, with the length 128 times the number of blocks and no flag, and the destination holds the payloads
in order; offsets beyond them read as before, for the model has one sink space for every session (log entry 14). -/
def Obligations.TransferDeliversConcatenation : Prop :=
  ∀ (s : State) (c : Nat) (ps : List (List Byte)), s.st = .idle → s.pend = [] →
    (∀ p ∈ ps, p.length = 128) → 128 * ps.length ≤ c →
    ∃ t, runInstrs (.arm c :: framesFrom 1#8 ps ++ [.eot, .cpl]) s = .next t ∧ t.st = .idle ∧ t.input = s.input ∧
      t.transmitted = s.transmitted ++ List.replicate (ps.length + 1) 0x06#8 ∧
      t.completions = s.completions ++ [(128 * ps.length, .none)] ∧
      (∀ a, a < 128 * ps.length → t.dest.read a = ps.flatten[a]?) ∧
      ∀ a, 128 * ps.length ≤ a → t.dest.read a = s.dest.read a

/-! ## Encoding -/

/-- Every well-formed instruction is read back from its encoding, at every position it can stand at, with every operand. -/
def Obligations.DecodeOfEncodeIsTheInstruction : Prop :=
  ∀ (i : Instr) (pos : Byte), i.wellFormed = true → i.standsAt pos = true → decode pos (encode i) = .ok i

/-- `30_encoding.md` section 3: what the decoder reads from a well-formed signal is well-formed, stands at the position, and has
that signal as its encoding: one meaning for every byte at every position. The premise is about `ARM`'s operand alone, which
has W bits (section 4). -/
def Obligations.DecodedSignalIsTheEncoding : Prop :=
  ∀ (i : Instr) (pos : Byte) (g : Signal), g.wellFormed = true → decode pos g = .ok i →
    i.wellFormed = true ∧ i.standsAt pos = true ∧ encode i = g

/-- Words written out from the encodings of `30_encoding.md` sections 1 and 3, one per family and position. The one clause at
position 132, which no run reaches, is the model's choice (log entry 8). -/
def Obligations.WrittenOutWordsDecode : Prop :=
  decodeRx 0 0b00000001 = .ok .dataSoh ∧ decodeRx 0 0b00000100 = .ok .eot ∧ decodeRx 0 0b00000110 = .ok (.illegal 0x06#8) ∧
    decodeRx 1 0b00000100 = .ok (.dataBlk 4) ∧ decodeRx 2 0b11111110 = .ok (.dataCmp 0xFE) ∧
    decodeRx 3 0b00000100 = .ok (.dataPay 4) ∧ decodeRx 130 0b00000001 = .ok (.dataPay 1) ∧
    decodeRx 131 0b10000000 = .ok (.dataSum 0x80) ∧ decodeRx 132 0 = .error .positionOutOfRange ∧
    decodeResponse 0b00000110 = .ok .ack ∧ decodeResponse 0b00010101 = .ok .nak ∧
    decodeFrame (0x01 :: 0x02 :: 0xFD :: (List.replicate 128 0xBB ++ [0x80])) =
      .ok (.data 0x02 0xFD (List.replicate 128 0xBB) 0x80)

/-! ## Arithmetic -/

/-- `41_block_validator.md` section 2, the checksum: it is the sum of the payload modulo 256, and the comparison with the
received byte is equality of two 8-bit values; R89: the successor
wraps from 0xFF to 0x00 and the predecessor from 0x00 to 0xFF; the identity of `41_block_validator.md` section 2 (an inference
of the spec): `255 - n` never borrows and is the bitwise complement. -/
def Obligations.ByteArithmeticIsModulo256 : Prop :=
  (∀ p : List Byte, (checksumOf p).toNat = (p.map BitVec.toNat).sum % 256) ∧
  (∀ (s : State) (b : Byte), sumOk s b = true ↔ b.toNat = s.sum.toNat) ∧
  (∀ n : Byte, (successor n).toNat = (n.toNat + 1) % 256 ∧ predecessor (successor n) = n) ∧
  ∀ n : Byte, (complementOf n).toNat = 255 - n.toNat ∧ complementOf n = n ^^^ 0xFF#8

/-- `41_block_validator.md` section 2 (R90, an inference of the spec): in every state that meets the invariants the numbers
are W-bit ones, and the operations on them are the W-bit unsigned operations, since those do not wrap: the cursor and the
capacity after an accepted block, and the offset of a staging write. -/
def Obligations.NaturalsAreTheWBitOperations : Prop :=
  ∀ s : State, Inv s → s.cur < 2 ^ Config.W ∧ s.cap < 2 ^ Config.W ∧
    (fits s = true →
      advance s.cur = (BitVec.ofNat Config.W s.cur + 128#Config.W).toNat ∧
      consume s.cap = (BitVec.ofNat Config.W s.cap - 128#Config.W).toNat) ∧
    (fits s = true → 3 ≤ s.pos.toNat → s.pos.toNat ≤ 130 →
      stagingOffset s.cur s.pos = (BitVec.ofNat Config.W s.cur + (s.pos - 3#8).setWidth Config.W).toNat)

/-- The encodings of `st` and of the error flag (`00_scope.md` section 4; D4, D15). -/
def Obligations.StateAndFlagEncodings : Prop :=
  Proto.idle.code = 0#2 ∧ Proto.await.code = 1#2 ∧ Proto.xfer.code = 2#2 ∧ Proto.done.code = 3#2 ∧
    ErrFlag.none.code = 0#1 ∧ ErrFlag.overflow.code = 1#1

/-! ## The step -/

/-- `00_scope.md` section 3 (a step takes one event and its outputs are delivered before the next), as the model renders it:
the events are a list whose oldest is taken (log entry 3), and outputs wait in `pend` (log entry 5). When the event decodes, where the parser stands, to `i`, the step is
`exec i` in the state without that event, then the delivery of the outputs. -/
def Obligations.StepRunsTheDecodedInstruction : Prop :=
  ∀ (s : State) (e : Event) (rest : List Event) (i : Instr), s.pend = [] → s.input = e :: rest →
    decodeEvent s.pos e = .ok i → step s = andThen (exec i { s with input := rest }) drain

/-- `20_memory.md` section 6, the order of outputs, as the model renders it (log entry 5): outputs still to be delivered go
out in list order before an event is taken, and their delivery changes no register and takes no event. -/
def Obligations.PendingOutputsAreDeliveredFirst : Prop :=
  ∀ s : State, s.pend ≠ [] → (∀ o ∈ s.pend, deliverable o = true) →
    step s = .next { s with pend := [], dest := s.dest.putAll s.pend, out := s.out ++ s.pend }

/-- The registers have the values `10_state.md` section 1 lists for reset (D18 for eight of them); the lists outside the
engine are empty (log entries 3, 5, 9). -/
def Obligations.ResetStateHasTheListedValues : Prop :=
  State.reset.st = .idle ∧ State.reset.pos = 0#8 ∧ State.reset.exp = 1#8 ∧ State.reset.blk = 0#8 ∧ State.reset.dup = false ∧
    State.reset.sum = 0#8 ∧ State.reset.cur = 0 ∧ State.reset.cap = 0 ∧ State.reset.err = .none ∧ State.reset.dest = [] ∧
    State.reset.input = [] ∧ State.reset.pend = [] ∧ State.reset.out = []

/-- The invariants of `10_state.md` section 4 hold at reset. -/
def Obligations.InvariantsHoldAtReset : Prop := Inv State.reset

/-- `10_state.md` section 4 (an inference of the spec): every step keeps the invariants, from every state that meets them. -/
def Obligations.EveryStepKeepsTheInvariants : Prop :=
  ∀ s t : State, Inv s → step s = .next t → Inv t

/-- R102: the step is the transition table, written down on its own in `Safety.lean`: a step leads to a state exactly when a
row of the table does, with the row's outputs delivered in order. The premise is the invariant: the table, too, speaks of a
duplicate in XFER only. -/
def Obligations.StepIsTheTransitionTable : Prop :=
  ∀ (s t : State) (e : Event) (rest : List Event), Inv s → s.input = e :: rest →
    (step s = .next t ↔ ∃ os u, TableRow { s with input := rest } e os u ∧ t = u.performAll os)

/-- `42_sequencer.md` section 3, the table: the rows are mutually exclusive (no state and event have two outcomes) and exhaustive (between steps, a state and
an event have no row exactly where R65 says that the event is not enabled). -/
def Obligations.TransitionTableRowsAreExclusiveAndExhaustive : Prop :=
  (∀ (s u v : State) (e : Event) (os ps : List Output), TableRow s e os u → TableRow s e ps v → os = ps ∧ u = v) ∧
  ∀ (s : State) (e : Event), Inv s → ((∃ os u, TableRow s e os u) ↔ enabled s e = true)

/-- R124 with the enabling of R65: no defect stops the engine. Between steps an enabled event always leads to a next state,
an event that is not enabled is refused as such, no step faults, and in every state some event is enabled. -/
def Obligations.EnabledEventsAlwaysRun : Prop :=
  ∀ s : State, Inv s →
    (∀ e rest, s.input = e :: rest → enabled s e = true → ∃ t, step s = .next t) ∧
    (∀ e rest, s.input = e :: rest → enabled s e = false → step s = .refused .notEnabled) ∧
    (∀ f, step s ≠ .fault f) ∧ ∃ e, enabled s e = true

/-- R103 and R35: a step transmits at most one byte, ACK or NAK. It transmits exactly one when it takes a timeout or a byte that
ends a frame attempt (`pos` is 0 after it): ACK for EOT, an accepted block and a duplicate, NAK otherwise; and none in any
other step. -/
def Obligations.OneResponsePerEndedAttempt : Prop :=
  ∀ (s t : State) (e : Event) (rest : List Event), Inv s → s.input = e :: rest → step s = .next t →
    t.transmitted = s.transmitted ++
      (if (e = .rx 0x04#8 ∧ s.pos = 0#8) ∨ (e = .rx s.sum ∧ s.pos = 131#8 ∧ (s.dup = true ∨ 128 ≤ s.cap)) then [0x06#8]
       else if e = .tmo ∨ (∃ b, e = .rx b) ∧ t.pos = 0#8 then [0x15#8]
       else [])

/-- `43_sink.md` section 2 and `20_memory.md` section 5: the memory frame of a step. A byte at `pos` = 3..130 of a new block
that fits is stored at `stagingOffset cur pos`, which lies in `cur .. cur + 127`, inside the capacity; every other offset, and
every offset in every other step, reads as before. -/
def Obligations.StepStoresOneByteInStagingOrNone : Prop :=
  ∀ (s t : State) (e : Event) (rest : List Event), Inv s → s.input = e :: rest → step s = .next t →
    (∀ b, e = .rx b → 3 ≤ s.pos.toNat → s.pos.toNat ≤ 130 → staged s = true →
      s.cur ≤ stagingOffset s.cur s.pos ∧ stagingOffset s.cur s.pos < s.cur + 128 ∧
      s.cur + 128 ≤ s.cur + s.cap ∧
      t.out = s.out ++ [.sinkWrite (stagingOffset s.cur s.pos) b] ∧
      t.dest.read (stagingOffset s.cur s.pos) = some b ∧
      ∀ a, a ≠ stagingOffset s.cur s.pos → t.dest.read a = s.dest.read a) ∧
    (¬ ((∃ b, e = .rx b) ∧ 3 ≤ s.pos.toNat ∧ s.pos.toNat ≤ 130 ∧ staged s = true) →
      ∀ a, t.dest.read a = s.dest.read a)

/-- `20_memory.md` section 5, the first row of its table: no step changes a committed byte. -/
def Obligations.CommittedBytesNeverChange : Prop :=
  ∀ s t : State, Inv s → step s = .next t → ∀ a, a < s.cur → t.dest.read a = s.dest.read a

/-- `43_sink.md` section 2 and `40_frame_parser.md` section 5: the bytes staged are the bytes received. They are counted,
summed and stored as they arrive, whatever other events fall between, and an accepted block commits exactly them. -/
def Obligations.AcceptedBlockIsTheBytesReceived : Prop :=
  ∀ (s t : State) (bytes : List Byte), Inv s → Staging bytes s → step s = .next t →
    Staging (stagedAfter bytes s) t ∧
    (s.cur < t.cur → t.cur = s.cur + 128 ∧ bytes.length = 128 ∧
      ∀ k, (h : k < bytes.length) → t.dest.read (s.cur + k) = some bytes[k])

/-- `10_state.md` section 4, (i) (an inference of the spec): `cur + cap` stays the capacity armed; only an accepted ARM or RST
sets it anew. -/
def Obligations.CapacityIsConserved : Prop :=
  ∀ (s t : State) (e : Event) (rest : List Event), Inv s → s.input = e :: rest → step s = .next t →
    e ≠ .rst → ¬ ((∃ c, e = .arm c) ∧ s.st = .idle) →
    t.cur + t.cap = s.cur + s.cap

/-- `10_state.md` section 2 (`exp`, `cur`, `cap`; D18 for reset): the session registers are written by an accepted block, an
accepted ARM and RST alone. A NAK, a duplicate, a timeout, EOT and Overflow leave them. -/
def Obligations.SessionRegistersHaveThreeWriters : Prop :=
  ∀ (s t : State) (e : Event) (rest : List Event), s.pend = [] → s.input = e :: rest → step s = .next t →
    e ≠ .rst → ¬ ((∃ c, e = .arm c) ∧ s.st = .idle) →
    ¬ (∃ b, e = .rx b ∧ s.pos = 131#8 ∧ b = s.sum ∧ s.dup = false ∧ 128 ≤ s.cap) →
    t.exp = s.exp ∧ t.cur = s.cur ∧ t.cap = s.cap

/-- `10_state.md` section 2 (`blk`, `dup`, `sum`, `err`; D18 for reset): `blk` and `dup` are written at `pos` = 1 alone, by an accepted number, `sum` by an accepted complement at
`pos` = 2 and 3..130, `err` by an accepted ARM, EOT and Overflow; RST writes all. A byte that is rejected writes none of
them. -/
def Obligations.FrameRegistersAreWrittenAtTheirPositions : Prop :=
  ∀ (s t : State) (e : Event) (rest : List Event), s.pend = [] → s.input = e :: rest → step s = .next t → e ≠ .rst →
    (¬ (∃ b, e = .rx b ∧ s.pos = 1#8 ∧ (b = s.exp ∨ s.st = .xfer ∧ b = s.exp - 1#8)) → t.blk = s.blk ∧ t.dup = s.dup) ∧
    (¬ (∃ b, e = .rx b ∧ (s.pos = 2#8 ∧ b = 255#8 - s.blk ∨ 3 ≤ s.pos.toNat ∧ s.pos.toNat ≤ 130)) → t.sum = s.sum) ∧
    (¬ ((∃ c, e = .arm c) ∧ s.st = .idle) → ¬ (e = .rx 0x04#8 ∧ s.pos = 0#8) →
      ¬ (∃ b, e = .rx b ∧ s.pos = 131#8 ∧ b = s.sum ∧ s.dup = false ∧ s.cap < 128) → t.err = s.err)

/-- R105 (its transitions) and `42_sequencer.md` section 3: DONE is entered only from AWAIT or XFER, and in that step the
final response is sent; CPL is the only way out of DONE but RST; a completion is delivered by that step alone, with `cur` and
`err`. -/
def Obligations.CompletionIsDeliveredOnceAfterTheResponse : Prop :=
  ∀ (s t : State) (e : Event) (rest : List Event), Inv s → s.input = e :: rest → step s = .next t →
    (t.st = .done → s.st ≠ .done → (s.st = .await ∨ s.st = .xfer) ∧ ∃ r, t.out = s.out ++ [.tx r]) ∧
    (s.st = .done → t.st ≠ .done → e = .cpl ∨ e = .rst) ∧
    (t.completions = if e = .cpl then s.completions ++ [(s.cur, s.err)] else s.completions) ∧
    (e = .cpl → s.st = .done ∧ t.st = .idle)

/-- R143: RST in any state emits nothing, undoes nothing in the destination, and loses a pending completion. -/
def Obligations.ResetEmitsAndUndoesNothing : Prop :=
  ∀ (s : State) (rest : List Event), s.pend = [] → s.input = .rst :: rest →
    step s = .next { State.reset with dest := s.dest, out := s.out, input := rest }

/-- R98: keepalives. In AWAIT at `pos` = 0 any number of timeouts in a row send one NAK each and leave the state as it
was. -/
def Obligations.KeepalivesRepeatWithoutLimit : Prop :=
  ∀ (s : State) (n : Nat) (rest : List Event), s.st = .await → s.pos = 0#8 → s.pend = [] →
    runSteps n { s with input := List.replicate n .tmo ++ rest } =
      .next { s with input := rest, out := s.out ++ List.replicate n (.tx 0x15#8) }

/-- `42_sequencer.md` section 5 (D16): retries are unbounded. From AWAIT or XFER at `pos` = 0, whatever endless sequence of
defective frames and timeouts the environment delivers, there is an endless run on it: the engine takes every event, sends
one NAK for each attempt, and the session stays in its state with `exp`, `cur`, `cap` and `err` as they were. -/
def Obligations.DefectsForEverMeanNaksForEver : Prop :=
  ∀ (s : State) (env : Nat → List Event), (s.st = .await ∨ s.st = .xfer) → s.pos = 0#8 → s.pend = [] → s.input = [] →
    (∀ k, Defective s (env k)) →
    ∃ run, run 0 = s ∧ EndlessRun env run ∧
      ∀ k, (run k).st = s.st ∧ (run k).exp = s.exp ∧ (run k).cur = s.cur ∧ (run k).cap = s.cap ∧ (run k).err = s.err ∧
        (run k).pos = 0#8 ∧ (run k).transmitted = s.transmitted ++ List.replicate k 0x15#8

/-- `20_memory.md` section 1 and `43_sink.md` section 3: the engine never reads the sink or what it has sent. Two runs that
differ only there take the same steps and send the same outputs. -/
def Obligations.SinkIsNeverRead : Prop :=
  ∀ (s t : State) (m : Memory) (sent : List Output), s.pend = [] → step s = .next t →
    ∃ m' new, step { s with dest := m, out := sent } = .next { t with dest := m', out := sent ++ new } ∧
      t.out = s.out ++ new

/-- `30_encoding.md` section 3 (D30): a payload byte is data. Whatever its value, control bytes included, the next protocol
state, position, block number, duplicate flag, cursor, capacity and expected number are the same, and nothing is
transmitted. The value enters the sum and the byte stored: the two runs store at the same offset, or neither stores, and no
other byte of the destination differs. -/
def Obligations.PayloadValueNeverSteersTheEngine : Prop :=
  ∀ (s t : State) (b c : Byte) (rest : List Event), s.pend = [] → 3 ≤ s.pos.toNat → s.pos.toNat ≤ 130 →
    s.input = .rx b :: rest → step s = .next t →
    ∃ u, step { s with input := .rx c :: rest } = .next u ∧
      u = { t with sum := s.sum + c, dest := u.dest, out := u.out } ∧ t.sum = s.sum + b ∧
      (if staged s = true then
        t.out = s.out ++ [.sinkWrite (stagingOffset s.cur s.pos) b] ∧ u.out = s.out ++ [.sinkWrite (stagingOffset s.cur s.pos) c] ∧
        t.dest.read (stagingOffset s.cur s.pos) = some b ∧ u.dest.read (stagingOffset s.cur s.pos) = some c ∧
        ∀ a, a ≠ stagingOffset s.cur s.pos → u.dest.read a = t.dest.read a
      else t.out = s.out ∧ u.out = s.out ∧ u.dest = t.dest)

/-- `60_exceptions.md` section 6 (D19): which interval a pending read carries. -/
def Obligations.ReadIntervalFollowsPosition : Prop :=
  ∀ s : State,
    (s.st = .await → s.pend = [] → s.pos = 0#8 → readInterval s = some .tIdle) ∧
    (s.st = .await → s.pend = [] → s.pos ≠ 0#8 → readInterval s = some .tByte) ∧
    (s.st = .xfer → s.pend = [] → readInterval s = some .tByte) ∧
    ((s.st = .idle ∨ s.st = .done ∨ s.pend ≠ []) → readInterval s = none)

/-- `30_encoding.md` section 5 (D29): `FRAME n P` is 132 received bytes, `HDR n` its first three, `PART n P m` its first
`m`. -/
def Obligations.StimulusFrameIs132Bytes : Prop :=
  ∀ (n : Byte) (p : List Byte) (m : Nat), p.length = 128 →
    (Stimulus.frame n p).events = (0x01 :: n :: (255#8 - n) :: (p ++ [checksumOf p])).map .rx ∧
    (Stimulus.frame n p).events.length = 132 ∧
    (Stimulus.hdr n).events = (Stimulus.frame n p).events.take 3 ∧
    (Stimulus.part n p m).events = (Stimulus.frame n p).events.take m
end

