-- ==== Sys2Proof/Laws/State.lean ====
section
/-! SUPPORT. The constants as numerals, and the fields of the named updates, one lemma per field and update. -/

namespace Sys2Proof.Config

@[simp] theorem SOH_eq : SOH = 1#8 := rfl
@[simp] theorem EOT_eq : EOT = 4#8 := rfl
@[simp] theorem ACK_eq : ACK = 6#8 := rfl
@[simp] theorem NAK_eq : NAK = 21#8 := rfl
@[simp] theorem firstBlock_eq : firstBlock = 1#8 := rfl
@[simp] theorem payloadLen_eq : payloadLen = 128 := rfl
@[simp] theorem headerLen_eq : headerLen = 3 := rfl
@[simp] theorem frameLen_eq : frameLen = 132 := rfl

end Sys2Proof.Config

namespace Sys2Proof.Machine

variable (s : State)

/-! ## `State.setPos` -/

@[simp] theorem State.setPos_st (p : Byte) : (s.setPos p).st = s.st := rfl
@[simp] theorem State.setPos_pos (p : Byte) : (s.setPos p).pos = p := rfl
@[simp] theorem State.setPos_exp (p : Byte) : (s.setPos p).exp = s.exp := rfl
@[simp] theorem State.setPos_blk (p : Byte) : (s.setPos p).blk = s.blk := rfl
@[simp] theorem State.setPos_dup (p : Byte) : (s.setPos p).dup = s.dup := rfl
@[simp] theorem State.setPos_sum (p : Byte) : (s.setPos p).sum = s.sum := rfl
@[simp] theorem State.setPos_cur (p : Byte) : (s.setPos p).cur = s.cur := rfl
@[simp] theorem State.setPos_cap (p : Byte) : (s.setPos p).cap = s.cap := rfl
@[simp] theorem State.setPos_err (p : Byte) : (s.setPos p).err = s.err := rfl
@[simp] theorem State.setPos_dest (p : Byte) : (s.setPos p).dest = s.dest := rfl
@[simp] theorem State.setPos_input (p : Byte) : (s.setPos p).input = s.input := rfl
@[simp] theorem State.setPos_pend (p : Byte) : (s.setPos p).pend = s.pend := rfl
@[simp] theorem State.setPos_out (p : Byte) : (s.setPos p).out = s.out := rfl

/-! ## `State.emit` -/

@[simp] theorem State.emit_st (o : Output) : (s.emit o).st = s.st := rfl
@[simp] theorem State.emit_pos (o : Output) : (s.emit o).pos = s.pos := rfl
@[simp] theorem State.emit_exp (o : Output) : (s.emit o).exp = s.exp := rfl
@[simp] theorem State.emit_blk (o : Output) : (s.emit o).blk = s.blk := rfl
@[simp] theorem State.emit_dup (o : Output) : (s.emit o).dup = s.dup := rfl
@[simp] theorem State.emit_sum (o : Output) : (s.emit o).sum = s.sum := rfl
@[simp] theorem State.emit_cur (o : Output) : (s.emit o).cur = s.cur := rfl
@[simp] theorem State.emit_cap (o : Output) : (s.emit o).cap = s.cap := rfl
@[simp] theorem State.emit_err (o : Output) : (s.emit o).err = s.err := rfl
@[simp] theorem State.emit_dest (o : Output) : (s.emit o).dest = s.dest := rfl
@[simp] theorem State.emit_input (o : Output) : (s.emit o).input = s.input := rfl
@[simp] theorem State.emit_pend (o : Output) : (s.emit o).pend = s.pend ++ [o] := rfl
@[simp] theorem State.emit_out (o : Output) : (s.emit o).out = s.out := rfl

/-! ## `State.takeNumber` -/

@[simp] theorem State.takeNumber_st (b : Byte) (d : Bool) : (s.takeNumber b d).st = s.st := rfl
@[simp] theorem State.takeNumber_pos (b : Byte) (d : Bool) : (s.takeNumber b d).pos = 2#8 := rfl
@[simp] theorem State.takeNumber_exp (b : Byte) (d : Bool) : (s.takeNumber b d).exp = s.exp := rfl
@[simp] theorem State.takeNumber_blk (b : Byte) (d : Bool) : (s.takeNumber b d).blk = b := rfl
@[simp] theorem State.takeNumber_dup (b : Byte) (d : Bool) : (s.takeNumber b d).dup = d := rfl
@[simp] theorem State.takeNumber_sum (b : Byte) (d : Bool) : (s.takeNumber b d).sum = s.sum := rfl
@[simp] theorem State.takeNumber_cur (b : Byte) (d : Bool) : (s.takeNumber b d).cur = s.cur := rfl
@[simp] theorem State.takeNumber_cap (b : Byte) (d : Bool) : (s.takeNumber b d).cap = s.cap := rfl
@[simp] theorem State.takeNumber_err (b : Byte) (d : Bool) : (s.takeNumber b d).err = s.err := rfl
@[simp] theorem State.takeNumber_dest (b : Byte) (d : Bool) : (s.takeNumber b d).dest = s.dest := rfl
@[simp] theorem State.takeNumber_input (b : Byte) (d : Bool) : (s.takeNumber b d).input = s.input := rfl
@[simp] theorem State.takeNumber_pend (b : Byte) (d : Bool) : (s.takeNumber b d).pend = s.pend := rfl
@[simp] theorem State.takeNumber_out (b : Byte) (d : Bool) : (s.takeNumber b d).out = s.out := rfl

/-! ## `State.startPayload` -/

@[simp] theorem State.startPayload_st : (s.startPayload).st = s.st := rfl
@[simp] theorem State.startPayload_pos : (s.startPayload).pos = 3#8 := rfl
@[simp] theorem State.startPayload_exp : (s.startPayload).exp = s.exp := rfl
@[simp] theorem State.startPayload_blk : (s.startPayload).blk = s.blk := rfl
@[simp] theorem State.startPayload_dup : (s.startPayload).dup = s.dup := rfl
@[simp] theorem State.startPayload_sum : (s.startPayload).sum = 0#8 := rfl
@[simp] theorem State.startPayload_cur : (s.startPayload).cur = s.cur := rfl
@[simp] theorem State.startPayload_cap : (s.startPayload).cap = s.cap := rfl
@[simp] theorem State.startPayload_err : (s.startPayload).err = s.err := rfl
@[simp] theorem State.startPayload_dest : (s.startPayload).dest = s.dest := rfl
@[simp] theorem State.startPayload_input : (s.startPayload).input = s.input := rfl
@[simp] theorem State.startPayload_pend : (s.startPayload).pend = s.pend := rfl
@[simp] theorem State.startPayload_out : (s.startPayload).out = s.out := rfl

/-! ## `State.takePayload` -/

@[simp] theorem State.takePayload_st (b : Byte) : (s.takePayload b).st = s.st := rfl
@[simp] theorem State.takePayload_pos (b : Byte) : (s.takePayload b).pos = s.pos + 1#8 := rfl
@[simp] theorem State.takePayload_exp (b : Byte) : (s.takePayload b).exp = s.exp := rfl
@[simp] theorem State.takePayload_blk (b : Byte) : (s.takePayload b).blk = s.blk := rfl
@[simp] theorem State.takePayload_dup (b : Byte) : (s.takePayload b).dup = s.dup := rfl
@[simp] theorem State.takePayload_sum (b : Byte) : (s.takePayload b).sum = addToSum s.sum b := rfl
@[simp] theorem State.takePayload_cur (b : Byte) : (s.takePayload b).cur = s.cur := rfl
@[simp] theorem State.takePayload_cap (b : Byte) : (s.takePayload b).cap = s.cap := rfl
@[simp] theorem State.takePayload_err (b : Byte) : (s.takePayload b).err = s.err := rfl
@[simp] theorem State.takePayload_dest (b : Byte) : (s.takePayload b).dest = s.dest := rfl
@[simp] theorem State.takePayload_input (b : Byte) : (s.takePayload b).input = s.input := rfl
@[simp] theorem State.takePayload_pend (b : Byte) : (s.takePayload b).pend = s.pend := rfl
@[simp] theorem State.takePayload_out (b : Byte) : (s.takePayload b).out = s.out := rfl

/-! ## `State.commitBlock` -/

@[simp] theorem State.commitBlock_st : (s.commitBlock).st = .xfer := rfl
@[simp] theorem State.commitBlock_pos : (s.commitBlock).pos = 0#8 := rfl
@[simp] theorem State.commitBlock_exp : (s.commitBlock).exp = successor s.exp := rfl
@[simp] theorem State.commitBlock_blk : (s.commitBlock).blk = s.blk := rfl
@[simp] theorem State.commitBlock_dup : (s.commitBlock).dup = s.dup := rfl
@[simp] theorem State.commitBlock_sum : (s.commitBlock).sum = s.sum := rfl
@[simp] theorem State.commitBlock_cur : (s.commitBlock).cur = advance s.cur := rfl
@[simp] theorem State.commitBlock_cap : (s.commitBlock).cap = consume s.cap := rfl
@[simp] theorem State.commitBlock_err : (s.commitBlock).err = s.err := rfl
@[simp] theorem State.commitBlock_dest : (s.commitBlock).dest = s.dest := rfl
@[simp] theorem State.commitBlock_input : (s.commitBlock).input = s.input := rfl
@[simp] theorem State.commitBlock_pend : (s.commitBlock).pend = s.pend := rfl
@[simp] theorem State.commitBlock_out : (s.commitBlock).out = s.out := rfl

/-! ## `State.endSession` -/

@[simp] theorem State.endSession_st (f : ErrFlag) : (s.endSession f).st = .done := rfl
@[simp] theorem State.endSession_pos (f : ErrFlag) : (s.endSession f).pos = s.pos := rfl
@[simp] theorem State.endSession_exp (f : ErrFlag) : (s.endSession f).exp = s.exp := rfl
@[simp] theorem State.endSession_blk (f : ErrFlag) : (s.endSession f).blk = s.blk := rfl
@[simp] theorem State.endSession_dup (f : ErrFlag) : (s.endSession f).dup = s.dup := rfl
@[simp] theorem State.endSession_sum (f : ErrFlag) : (s.endSession f).sum = s.sum := rfl
@[simp] theorem State.endSession_cur (f : ErrFlag) : (s.endSession f).cur = s.cur := rfl
@[simp] theorem State.endSession_cap (f : ErrFlag) : (s.endSession f).cap = s.cap := rfl
@[simp] theorem State.endSession_err (f : ErrFlag) : (s.endSession f).err = f := rfl
@[simp] theorem State.endSession_dest (f : ErrFlag) : (s.endSession f).dest = s.dest := rfl
@[simp] theorem State.endSession_input (f : ErrFlag) : (s.endSession f).input = s.input := rfl
@[simp] theorem State.endSession_pend (f : ErrFlag) : (s.endSession f).pend = s.pend := rfl
@[simp] theorem State.endSession_out (f : ErrFlag) : (s.endSession f).out = s.out := rfl

/-! ## `State.openSession` -/

@[simp] theorem State.openSession_st (c : Nat) : (s.openSession c).st = .await := rfl
@[simp] theorem State.openSession_pos (c : Nat) : (s.openSession c).pos = 0#8 := rfl
@[simp] theorem State.openSession_exp (c : Nat) : (s.openSession c).exp = Config.firstBlock := rfl
@[simp] theorem State.openSession_blk (c : Nat) : (s.openSession c).blk = s.blk := rfl
@[simp] theorem State.openSession_dup (c : Nat) : (s.openSession c).dup = s.dup := rfl
@[simp] theorem State.openSession_sum (c : Nat) : (s.openSession c).sum = s.sum := rfl
@[simp] theorem State.openSession_cur (c : Nat) : (s.openSession c).cur = 0 := rfl
@[simp] theorem State.openSession_cap (c : Nat) : (s.openSession c).cap = c := rfl
@[simp] theorem State.openSession_err (c : Nat) : (s.openSession c).err = .none := rfl
@[simp] theorem State.openSession_dest (c : Nat) : (s.openSession c).dest = s.dest := rfl
@[simp] theorem State.openSession_input (c : Nat) : (s.openSession c).input = s.input := rfl
@[simp] theorem State.openSession_pend (c : Nat) : (s.openSession c).pend = s.pend := rfl
@[simp] theorem State.openSession_out (c : Nat) : (s.openSession c).out = s.out := rfl

/-! ## `State.release` -/

@[simp] theorem State.release_st : (s.release).st = .idle := rfl
@[simp] theorem State.release_pos : (s.release).pos = s.pos := rfl
@[simp] theorem State.release_exp : (s.release).exp = s.exp := rfl
@[simp] theorem State.release_blk : (s.release).blk = s.blk := rfl
@[simp] theorem State.release_dup : (s.release).dup = s.dup := rfl
@[simp] theorem State.release_sum : (s.release).sum = s.sum := rfl
@[simp] theorem State.release_cur : (s.release).cur = s.cur := rfl
@[simp] theorem State.release_cap : (s.release).cap = s.cap := rfl
@[simp] theorem State.release_err : (s.release).err = s.err := rfl
@[simp] theorem State.release_dest : (s.release).dest = s.dest := rfl
@[simp] theorem State.release_input : (s.release).input = s.input := rfl
@[simp] theorem State.release_pend : (s.release).pend = s.pend := rfl
@[simp] theorem State.release_out : (s.release).out = s.out := rfl

/-! ## `State.resetRegisters` -/

@[simp] theorem State.resetRegisters_st : (s.resetRegisters).st = .idle := rfl
@[simp] theorem State.resetRegisters_pos : (s.resetRegisters).pos = 0#8 := rfl
@[simp] theorem State.resetRegisters_exp : (s.resetRegisters).exp = 1#8 := rfl
@[simp] theorem State.resetRegisters_blk : (s.resetRegisters).blk = 0#8 := rfl
@[simp] theorem State.resetRegisters_dup : (s.resetRegisters).dup = false := rfl
@[simp] theorem State.resetRegisters_sum : (s.resetRegisters).sum = 0#8 := rfl
@[simp] theorem State.resetRegisters_cur : (s.resetRegisters).cur = 0 := rfl
@[simp] theorem State.resetRegisters_cap : (s.resetRegisters).cap = 0 := rfl
@[simp] theorem State.resetRegisters_err : (s.resetRegisters).err = .none := rfl
@[simp] theorem State.resetRegisters_dest : (s.resetRegisters).dest = s.dest := rfl
@[simp] theorem State.resetRegisters_input : (s.resetRegisters).input = s.input := rfl
@[simp] theorem State.resetRegisters_pend : (s.resetRegisters).pend = s.pend := rfl
@[simp] theorem State.resetRegisters_out : (s.resetRegisters).out = s.out := rfl

/-! ## `State.setInput` -/

@[simp] theorem State.setInput_st (es : List Event) : (s.setInput es).st = s.st := rfl
@[simp] theorem State.setInput_pos (es : List Event) : (s.setInput es).pos = s.pos := rfl
@[simp] theorem State.setInput_exp (es : List Event) : (s.setInput es).exp = s.exp := rfl
@[simp] theorem State.setInput_blk (es : List Event) : (s.setInput es).blk = s.blk := rfl
@[simp] theorem State.setInput_dup (es : List Event) : (s.setInput es).dup = s.dup := rfl
@[simp] theorem State.setInput_sum (es : List Event) : (s.setInput es).sum = s.sum := rfl
@[simp] theorem State.setInput_cur (es : List Event) : (s.setInput es).cur = s.cur := rfl
@[simp] theorem State.setInput_cap (es : List Event) : (s.setInput es).cap = s.cap := rfl
@[simp] theorem State.setInput_err (es : List Event) : (s.setInput es).err = s.err := rfl
@[simp] theorem State.setInput_dest (es : List Event) : (s.setInput es).dest = s.dest := rfl
@[simp] theorem State.setInput_input (es : List Event) : (s.setInput es).input = es := rfl
@[simp] theorem State.setInput_pend (es : List Event) : (s.setInput es).pend = s.pend := rfl
@[simp] theorem State.setInput_out (es : List Event) : (s.setInput es).out = s.out := rfl

/-! ## `State.setPend` -/

@[simp] theorem State.setPend_st (os : List Output) : (s.setPend os).st = s.st := rfl
@[simp] theorem State.setPend_pos (os : List Output) : (s.setPend os).pos = s.pos := rfl
@[simp] theorem State.setPend_exp (os : List Output) : (s.setPend os).exp = s.exp := rfl
@[simp] theorem State.setPend_blk (os : List Output) : (s.setPend os).blk = s.blk := rfl
@[simp] theorem State.setPend_dup (os : List Output) : (s.setPend os).dup = s.dup := rfl
@[simp] theorem State.setPend_sum (os : List Output) : (s.setPend os).sum = s.sum := rfl
@[simp] theorem State.setPend_cur (os : List Output) : (s.setPend os).cur = s.cur := rfl
@[simp] theorem State.setPend_cap (os : List Output) : (s.setPend os).cap = s.cap := rfl
@[simp] theorem State.setPend_err (os : List Output) : (s.setPend os).err = s.err := rfl
@[simp] theorem State.setPend_dest (os : List Output) : (s.setPend os).dest = s.dest := rfl
@[simp] theorem State.setPend_input (os : List Output) : (s.setPend os).input = s.input := rfl
@[simp] theorem State.setPend_pend (os : List Output) : (s.setPend os).pend = os := rfl
@[simp] theorem State.setPend_out (os : List Output) : (s.setPend os).out = s.out := rfl

/-! ## `State.record` -/

@[simp] theorem State.record_st (o : Output) : (s.record o).st = s.st := rfl
@[simp] theorem State.record_pos (o : Output) : (s.record o).pos = s.pos := rfl
@[simp] theorem State.record_exp (o : Output) : (s.record o).exp = s.exp := rfl
@[simp] theorem State.record_blk (o : Output) : (s.record o).blk = s.blk := rfl
@[simp] theorem State.record_dup (o : Output) : (s.record o).dup = s.dup := rfl
@[simp] theorem State.record_sum (o : Output) : (s.record o).sum = s.sum := rfl
@[simp] theorem State.record_cur (o : Output) : (s.record o).cur = s.cur := rfl
@[simp] theorem State.record_cap (o : Output) : (s.record o).cap = s.cap := rfl
@[simp] theorem State.record_err (o : Output) : (s.record o).err = s.err := rfl
@[simp] theorem State.record_dest (o : Output) : (s.record o).dest = s.dest := rfl
@[simp] theorem State.record_input (o : Output) : (s.record o).input = s.input := rfl
@[simp] theorem State.record_pend (o : Output) : (s.record o).pend = s.pend := rfl
@[simp] theorem State.record_out (o : Output) : (s.record o).out = s.out ++ [o] := rfl

/-! ## `State.store` -/

@[simp] theorem State.store_st (off : Nat) (v : Byte) : (s.store off v).st = s.st := rfl
@[simp] theorem State.store_pos (off : Nat) (v : Byte) : (s.store off v).pos = s.pos := rfl
@[simp] theorem State.store_exp (off : Nat) (v : Byte) : (s.store off v).exp = s.exp := rfl
@[simp] theorem State.store_blk (off : Nat) (v : Byte) : (s.store off v).blk = s.blk := rfl
@[simp] theorem State.store_dup (off : Nat) (v : Byte) : (s.store off v).dup = s.dup := rfl
@[simp] theorem State.store_sum (off : Nat) (v : Byte) : (s.store off v).sum = s.sum := rfl
@[simp] theorem State.store_cur (off : Nat) (v : Byte) : (s.store off v).cur = s.cur := rfl
@[simp] theorem State.store_cap (off : Nat) (v : Byte) : (s.store off v).cap = s.cap := rfl
@[simp] theorem State.store_err (off : Nat) (v : Byte) : (s.store off v).err = s.err := rfl
@[simp] theorem State.store_dest (off : Nat) (v : Byte) : (s.store off v).dest = s.dest.write off v := rfl
@[simp] theorem State.store_input (off : Nat) (v : Byte) : (s.store off v).input = s.input := rfl
@[simp] theorem State.store_pend (off : Nat) (v : Byte) : (s.store off v).pend = s.pend := rfl
@[simp] theorem State.store_out (off : Nat) (v : Byte) : (s.store off v).out = s.out := rfl

end Sys2Proof.Machine
end

