-- ==== Sys2Proof/Laws/Memory.lean ====
section
/-! SUPPORT. The laws of the sink space: read after write, the canonical form, and that equal contents are equal lists. -/

namespace Sys2Proof.Machine

@[simp] theorem Memory.read_nil (a : Nat) : Memory.read [] a = none := rfl

/-- An offset below every listed one is not listed. -/
theorem Memory.read_of_lt {m : Memory} {a : Nat} (h : ∀ c ∈ m, a < c.1) : m.read a = none := by
  induction m with
  | nil => rfl
  | cons c rest ih =>
    have hc := h c (by simp)
    rw [Memory.read, if_neg (by omega), ih fun d hd => h d (by simp [hd])]

/-- What is listed after a write: the byte written, or what was listed before. -/
theorem Memory.mem_write {m : Memory} {a : Nat} {v : Byte} {c : Host.Cell} (h : c ∈ m.write a v) :
    c = (a, v) ∨ c ∈ m := by
  induction m with
  | nil => simpa [Memory.write] using h
  | cons d rest ih =>
    rw [Memory.write] at h
    split at h
    · simpa using h
    · split at h
      · rcases List.mem_cons.mp h with h | h
        · exact .inl h
        · exact .inr (by simp [h])
      · rcases List.mem_cons.mp h with h | h
        · exact .inr (by simp [h])
        · exact (ih h).imp_right (by simp +contextual)

/-- A write keeps the canonical form. -/
theorem Memory.wf_write {m : Memory} (h : m.wf) (a : Nat) (v : Byte) : (m.write a v).wf := by
  induction m with
  | nil => simp [Memory.write, Memory.wf]
  | cons d rest ih =>
    obtain ⟨hd, hr⟩ := List.pairwise_cons.mp h
    rw [Memory.write]
    split
    · refine List.pairwise_cons.mpr ⟨fun c hc => ?_, h⟩
      rcases List.mem_cons.mp hc with rfl | hc
      · assumption
      · have := hd c hc; simp only at *; omega
    · split
      · rename_i _ e
        exact List.pairwise_cons.mpr ⟨fun c hc => by simpa [e] using hd c hc, hr⟩
      · refine List.pairwise_cons.mpr ⟨fun c hc => ?_, ih hr⟩
        rcases Memory.mem_write hc with rfl | hc
        · simp only; omega
        · exact hd c hc

/-- Reading the byte just written. -/
@[simp] theorem Memory.read_write_self (m : Memory) (a : Nat) (v : Byte) : (m.write a v).read a = some v := by
  induction m with
  | nil => simp [Memory.write, Memory.read]
  | cons d rest ih =>
    rw [Memory.write]
    split
    · simp [Memory.read]
    · split
      · simp [Memory.read]
      · rw [Memory.read, if_neg ‹_›, ih]

/-- A write leaves every other offset alone. -/
theorem Memory.read_write_of_ne {m : Memory} {a b : Nat} (v : Byte) (h : b ≠ a) : (m.write a v).read b = m.read b := by
  induction m with
  | nil => simp [Memory.write, Memory.read, h]
  | cons d rest ih =>
    rw [Memory.write]
    split
    · simp [Memory.read, h]
    · split
      · rename_i _ e
        simp [Memory.read, ← e, h]
      · simp [Memory.read, ih]

/-- Two canonical contents that read the same are the same list. -/
theorem Memory.ext {m₁ m₂ : Memory} (h₁ : m₁.wf) (h₂ : m₂.wf) (h : ∀ a, m₁.read a = m₂.read a) : m₁ = m₂ := by
  induction m₁ generalizing m₂ with
  | nil =>
    cases m₂ with
    | nil => rfl
    | cons d _ => simpa [Memory.read] using h d.1
  | cons c r₁ ih =>
    cases m₂ with
    | nil => simpa [Memory.read] using h c.1
    | cons d r₂ =>
      obtain ⟨hc, hr₁⟩ := List.pairwise_cons.mp h₁
      obtain ⟨hd, hr₂⟩ := List.pairwise_cons.mp h₂
      have key : c.1 = d.1 := by
        rcases Nat.lt_trichotomy c.1 d.1 with lt | e | lt
        · have := h c.1
          rw [Memory.read, if_pos rfl, Memory.read, if_neg (by omega),
            Memory.read_of_lt fun x hx => by have := hd x hx; omega] at this
          cases this
        · exact e
        · have := h d.1
          rw [Memory.read, if_neg (by omega), Memory.read_of_lt fun x hx => by have := hc x hx; omega,
            Memory.read, if_pos rfl] at this
          cases this
      have hv : c.2 = d.2 := by simpa [Memory.read, key] using h c.1
      have hrest : r₁ = r₂ := by
        refine ih hr₁ hr₂ fun a => ?_
        by_cases e : a = c.1
        · rw [Memory.read_of_lt fun x hx => by have := hc x hx; omega,
            Memory.read_of_lt fun x hx => by have := hd x hx; omega]
        · simpa [Memory.read, e, ← key] using h a
      rw [Prod.ext key hv, hrest]

/-- Reset memory is in canonical form. -/
theorem Memory.wf_reset : State.reset.dest.wf := List.Pairwise.nil

end Sys2Proof.Machine
end

