-- ==== Sys2Proof/Laws/Ops.lean ====
section
/-! SUPPORT. One lemma per shared operation: what it can do. -/

namespace Sys2Proof.Machine

/-! ## Going on -/

section
variable {α : Type}

@[simp] theorem andThen_next (a : α) (f : α → Host.Outcome State Fault Refusal) : andThen (.next a) f = f a := rfl
@[simp] theorem andThen_fault (r : Fault) (f : α → Host.Outcome State Fault Refusal) :
    andThen (.fault r) f = .fault r := rfl
@[simp] theorem andThen_refused (r : Refusal) (f : α → Host.Outcome State Fault Refusal) :
    andThen (.refused r) f = .refused r := rfl

theorem andThen_eq_next {o : Host.Outcome α Fault Refusal} {f : α → Host.Outcome State Fault Refusal} {t : State} :
    andThen o f = .next t ↔ ∃ a, o = .next a ∧ f a = .next t := by
  cases o <;> simp [andThen]

end

/-! ## Taking a byte -/

/-- An `RX` instruction answers a next state exactly while a read is pending at one of its positions. -/
theorem receiving_eq_next {i : Instr} {s t u : State} :
    receiving i s t = .next u ↔ readPending s = true ∧ i.standsAt s.pos = true ∧ t = u := by
  unfold receiving
  split
  · split <;> simp_all
  · simp_all

theorem receiving_of {i : Instr} {s t : State} (h : readPending s = true) (hp : i.standsAt s.pos = true) :
    receiving i s t = .next t := receiving_eq_next.mpr ⟨h, hp, rfl⟩

/-- A read is pending in AWAIT and XFER with nothing left to deliver (R34). -/
theorem readPending_iff {s : State} : readPending s = true ↔ (s.st = .await ∨ s.st = .xfer) ∧ s.pend = [] := by
  simp [readPending, sessionOpen]

theorem sessionOpen_iff {s : State} : sessionOpen s = true ↔ s.st = .await ∨ s.st = .xfer := by
  simp [sessionOpen]

theorem fits_iff {s : State} : fits s = true ↔ 128 ≤ s.cap := by simp [fits]

theorem staged_iff {s : State} : staged s = true ↔ s.dup = false ∧ 128 ≤ s.cap := by
  simp [staged, fits]

/-! ## Offsets and widths -/

@[simp] theorem advance_eq (cur : Nat) : advance cur = cur + 128 := rfl
@[simp] theorem consume_eq (cap : Nat) : consume cap = cap - 128 := rfl

/-- A staging write at `pos` = 3..255 goes to the cursor plus the index of the payload byte. -/
theorem stagingOffset_eq {cur : Nat} {pos : Byte} (h : 3 ≤ pos.toNat) : stagingOffset cur pos = cur + (pos.toNat - 3) := by
  have : (pos - 3#8).toNat = pos.toNat - 3 := by bv_omega
  exact congrArg (cur + ·) this

theorem inWidth_iff {n : Nat} : inWidth n = true ↔ n < 2 ^ Config.W := by simp [inWidth]

/-- A number of 16 bits is one of `W` bits, whatever `W` is. -/
theorem lt_two_pow_W {n : Nat} (h : n < 65536) : n < 2 ^ Config.W :=
  Nat.lt_of_lt_of_le h (Nat.pow_le_pow_right (n := 2) (by decide) (Nat.le_add_right 16 Config.widthAbove16))

/-! ## Raising a defect -/

/-- Every defect emits one NAK and takes the parser to position 0; Overflow alone ends the session. -/
theorem raise_eq (d : Defect) (s : State) :
    s.raise d = if d = .overflow then { s with pend := s.pend ++ [.tx Config.NAK], err := .overflow, st := .done, pos := 0#8 }
      else { s with pend := s.pend ++ [.tx Config.NAK], pos := 0#8 } := by
  cases d <;> rfl

theorem acknowledge_eq (s : State) :
    s.acknowledge = { s with pend := s.pend ++ [.tx Config.ACK], pos := 0#8 } := rfl

/-! ## Delivery -/

/-- A deliverable output is delivered. -/
theorem deliver_eq {o : Output} (h : deliverable o = true) (s : State) : deliver o s = .next (s.perform o) := by
  cases o with
  | tx b =>
    have hb : b = Config.ACK ∨ b = Config.NAK := by simpa [deliverable] using h
    rcases hb with rfl | rfl <;> rfl
  | sinkWrite _ _ => rfl
  | complete _ _ => rfl
  | armRejected => rfl

/-- An output that is delivered was deliverable. -/
theorem deliver_eq_next {o : Output} {s t : State} : deliver o s = .next t ↔ deliverable o = true ∧ s.perform o = t := by
  constructor
  · intro h
    cases o with
    | tx b =>
      by_cases hb : b = Config.ACK ∨ b = Config.NAK
      · have hd : deliverable (.tx b) = true := by simpa [deliverable] using hb
        rw [deliver_eq hd] at h
        exact ⟨hd, by injection h⟩
      · obtain ⟨h1, h2⟩ := not_or.mp hb
        simp [deliver, decodeResponse, h1, h2] at h
    | sinkWrite _ _ => exact ⟨rfl, by injection h⟩
    | complete _ _ => exact ⟨rfl, by injection h⟩
    | armRejected => exact ⟨rfl, by injection h⟩
  · rintro ⟨h, rfl⟩
    exact deliver_eq h s

@[simp] theorem performAll_nil (s : State) : s.performAll [] = s := rfl
@[simp] theorem performAll_cons (s : State) (o : Output) (os : List Output) :
    s.performAll (o :: os) = (s.perform o).performAll os := rfl

/-- Deliverable outputs are delivered in list order. -/
theorem deliverAll_eq {os : List Output} (h : ∀ o ∈ os, deliverable o = true) (s : State) :
    deliverAll os s = .next (s.performAll os) := by
  induction os generalizing s with
  | nil => rfl
  | cons o os ih =>
    rw [deliverAll, deliver_eq (h o (by simp)), andThen_next, ih fun p hp => h p (by simp [hp])]
    rfl

theorem drain_eq {s : State} (h : ∀ o ∈ s.pend, deliverable o = true) :
    drain s = .next ((s.setPend []).performAll s.pend) := deliverAll_eq h _

theorem drain_nil {s : State} (h : s.pend = []) : drain s = .next s := by
  rw [drain, h]
  cases s
  simp_all [deliverAll, State.setPend]

/-- Delivering an output touches the sink space and the trace only, and adds the output to the trace. -/
theorem perform_frame (s : State) (o : Output) :
    (s.perform o).out = s.out ++ [o] ∧ s.perform o = { s with dest := (s.perform o).dest, out := s.out ++ [o] } := by
  cases o <;> exact ⟨rfl, rfl⟩

/-! ## Decoding -/

/-- Every position a run can reach has a reading of every byte (R62). -/
theorem decodeRx_total {pos : Byte} (h : pos.toNat ≤ 131) (b : Byte) : ∃ i, decodeRx pos b = .ok i := by
  unfold decodeRx
  split_ifs
  all_goals first | exact ⟨_, rfl⟩ | omega

/-- The reading of a byte stands at the position it was read at. -/
theorem decodeRx_standsAt {pos b : Byte} {i : Instr} (h : decodeRx pos b = .ok i) : i.standsAt pos = true := by
  unfold decodeRx decodeFirst at h
  split_ifs at h
  all_goals (injection h with h; subst h; simp [Instr.standsAt]; omega)

end Sys2Proof.Machine
end

