-- ==== Sys2Proof/Laws/Step.lean ====
section
/-! SUPPORT. What a step can do, said once. -/

namespace Sys2Proof.Machine

/-- A fetched instruction is the decoding of the oldest event. -/
theorem fetch_eq_next {s : State} {i : Instr} {rest : List Event} :
    fetch s = .next (i, rest) ↔ ∃ e, s.input = e :: rest ∧ decodeEvent s.pos e = .ok i := by
  unfold fetch
  cases s.input with
  | nil => simp
  | cons e r =>
    cases hd : decodeEvent s.pos e <;> simp [hd]
    aesop

/-- A step with nothing left to deliver takes the oldest event, runs its instruction and delivers the outputs. -/
theorem step_cases {s t : State} (hp : s.pend = []) (h : step s = .next t) :
    ∃ e rest i u, s.input = e :: rest ∧ decodeEvent s.pos e = .ok i ∧ exec i (s.setInput rest) = .next u ∧
      drain u = .next t := by
  unfold step cycle at h
  rw [hp] at h
  cases hf : fetch s with
  | next p =>
    obtain ⟨i, rest⟩ := p
    obtain ⟨e, hi, hd⟩ := fetch_eq_next.mp hf
    simp only [hf] at h
    obtain ⟨u, hu, hd'⟩ := andThen_eq_next.mp h
    exact ⟨e, rest, i, u, hi, hd, hu, hd'⟩
  | fault r => simp [hf] at h
  | refused r => simp [hf] at h

/-- An instruction that is the decoding of an event emits at most one output, and only a deliverable one. -/
theorem exec_emits {pos : Byte} {e : Event} {i : Instr} {s u : State} (hp : s.pend = []) (hd : decodeEvent pos e = .ok i)
    (h : exec i s = .next u) : u.pend = [] ∨ ∃ o, u.pend = [o] ∧ deliverable o = true := by
  have hn : deliverable (.tx Config.NAK) = true := rfl
  have ha : deliverable (.tx Config.ACK) = true := rfl
  cases i with
  | data n c p k =>
    cases e with
    | rx b =>
      simp only [decodeEvent, decodeRx, decodeFirst] at hd
      split_ifs at hd <;> cases hd
    | _ => cases hd
  | ack =>
    injection h with h
    subst h
    simp [hp]
  | nak =>
    injection h with h
    subst h
    simp [hp]
  | dataSoh =>
    obtain ⟨-, -, rfl⟩ := receiving_eq_next.mp h
    simp [hp]
  | dataBlk b =>
    obtain ⟨-, -, rfl⟩ := receiving_eq_next.mp h
    split_ifs <;> simp [raise_eq, hp, hn]
  | dataCmp b =>
    obtain ⟨-, -, rfl⟩ := receiving_eq_next.mp h
    split_ifs <;> simp [raise_eq, hp, hn]
  | dataPay b =>
    obtain ⟨-, -, rfl⟩ := receiving_eq_next.mp h
    split_ifs <;> simp [hp, deliverable]
  | dataSum b =>
    obtain ⟨-, -, rfl⟩ := receiving_eq_next.mp h
    cases classify s b <;> simp [State.conclude, raise_eq, acknowledge_eq, hp, hn, ha]
  | eot =>
    obtain ⟨-, -, rfl⟩ := receiving_eq_next.mp h
    simp [hp, ha]
  | illegal b =>
    obtain ⟨-, -, rfl⟩ := receiving_eq_next.mp h
    simp [raise_eq, hp, hn]
  | tmo =>
    obtain ⟨-, -, rfl⟩ := receiving_eq_next.mp h
    simp [raise_eq, hp, hn]
  | arm c =>
    injection h with h
    subst h
    split_ifs <;> simp [hp, deliverable]
  | cpl =>
    simp only [exec, execCpl] at h
    split_ifs at h
    injection h with h
    subst h
    simp [hp, deliverable]
  | rst =>
    injection h with h
    subst h
    simp [hp]

end Sys2Proof.Machine
end

