-- ==== Sys2Proof/Laws/PerInstr.lean ====
section
/-! SUPPORT. Statements about every instruction as syntax, one lemma per constructor. -/

namespace Sys2Proof.Laws.WireLength

/-- How many bytes a well-formed instruction puts on the wire: a frame 132, a received byte or a response one, an event off
the wire none (R51, R53, R54, R64, R65). -/
def length : Instr → Nat
  | .data _ _ _ _ => 132
  | .dataSoh => 1
  | .dataBlk _ => 1
  | .dataCmp _ => 1
  | .dataPay _ => 1
  | .dataSum _ => 1
  | .eot => 1
  | .illegal _ => 1
  | .ack => 1
  | .nak => 1
  | .tmo => 0
  | .arm _ => 0
  | .cpl => 0
  | .rst => 0

/-- The encoding of a well-formed instruction has that length. -/
def Statement (i : Instr) : Prop := i.wellFormed = true → (encode i).bytes.length = length i

theorem data (n c : Byte) (p : List Byte) (k : Byte) : Statement (.data n c p k) := by
  intro h
  have hl : p.length = 128 := by simpa [Instr.wellFormed] using h
  simp [encode, Signal.bytes, length, hl]

theorem dataSoh : Statement .dataSoh := fun _ => rfl
theorem dataBlk (n : Byte) : Statement (.dataBlk n) := fun _ => rfl
theorem dataCmp (c : Byte) : Statement (.dataCmp c) := fun _ => rfl
theorem dataPay (v : Byte) : Statement (.dataPay v) := fun _ => rfl
theorem dataSum (k : Byte) : Statement (.dataSum k) := fun _ => rfl
theorem eot : Statement .eot := fun _ => rfl
theorem illegal (b : Byte) : Statement (.illegal b) := fun _ => rfl
theorem ack : Statement .ack := fun _ => rfl
theorem nak : Statement .nak := fun _ => rfl
theorem tmo : Statement .tmo := fun _ => rfl
theorem arm (c : Nat) : Statement (.arm c) := fun _ => rfl
theorem cpl : Statement .cpl := fun _ => rfl
theorem rst : Statement .rst := fun _ => rfl

end Sys2Proof.Laws.WireLength
end

