-- ==== Sys2Proof/Tests/Slice0.lean ====
section
/-! SUPPORT. Tests: ill-formed terms, words written out from the encodings of `30_encoding.md`, one step per case from the
vectors of `95_test_vectors.md`, and a witness for the hypotheses of each obligation. Expected results are the spec's. -/

namespace Sys2Proof.Tests

open Sys2Proof Sys2Proof.Machine

/-! ## Well-formedness -/

/-- 127 payload bytes (R52 asks for 128). -/
theorem test_wf_short_payload : (Instr.data 1 0xFE (List.replicate 127 0xAA) 0).wellFormed = false := by decide +kernel

/-- 129 payload bytes. -/
theorem test_wf_long_payload : (Instr.data 1 0xFE (List.replicate 129 0xAA) 0).wellFormed = false := by decide +kernel

/-- The start marker is not an illegal byte (R60). -/
theorem test_wf_illegal_soh : (Instr.illegal 0x01).wellFormed = false := by decide

/-- EOT is not an illegal byte (R60). -/
theorem test_wf_illegal_eot : (Instr.illegal 0x04).wellFormed = false := by decide

/-- ARM's operand has W bits (R65): 0 and 2^W - 1 are operands, 2^W is not, whatever W is. -/
theorem test_wf_arm :
    (Instr.arm 0).wellFormed = true ∧ (Instr.arm (2 ^ Config.W - 1)).wellFormed = true ∧
      (Instr.arm (2 ^ Config.W)).wellFormed = false := by
  simp [Instr.wellFormed, inWidth]

/-- A received ACK is (R62 (a)), and a frame with a wrong complement and checksum is a legal input. -/
theorem test_wf_legal :
    (Instr.illegal 0x06).wellFormed = true ∧ (Instr.data 7 7 (List.replicate 128 0x04) 9).wellFormed = true := by
  decide +kernel

/-! ## Decoding: words from `30_encoding.md` sections 1 and 3 -/

theorem test_decode_soh : decode 0 (.event (.rx 0b00000001)) = .ok .dataSoh := rfl
theorem test_decode_eot : decode 0 (.event (.rx 0b00000100)) = .ok .eot := rfl

/-- R62 (a), R63: a received ACK, NAK, CAN, 'C', STX. -/
theorem test_decode_illegal :
    [0b00000110, 0b00010101, 0b00011000, 0b01000011, 0b00000010].map (fun b => decode 0 (.event (.rx b))) =
      [.ok (.illegal 0x06), .ok (.illegal 0x15), .ok (.illegal 0x18), .ok (.illegal 0x43), .ok (.illegal 0x02)] := rfl

/-- R61: inside a frame EOT's and SOH's values are header, payload or checksum bytes. -/
theorem test_decode_blk : decode 1 (.event (.rx 0b00000100)) = .ok (.dataBlk 0x04) := rfl
theorem test_decode_cmp : decode 2 (.event (.rx 0b11111110)) = .ok (.dataCmp 0xFE) := rfl
theorem test_decode_pay_first : decode 3 (.event (.rx 0b00000100)) = .ok (.dataPay 0x04) := rfl
theorem test_decode_pay_last : decode 130 (.event (.rx 0b00000001)) = .ok (.dataPay 0x01) := rfl
theorem test_decode_sum : decode 131 (.event (.rx 0b10000000)) = .ok (.dataSum 0x80) := rfl
theorem test_decode_ack : decode 0 (.response 0b00000110) = .ok .ack := rfl
theorem test_decode_nak : decode 0 (.response 0b00010101) = .ok .nak := rfl
theorem test_decode_not_response : decode 0 (.response 0b00000100) = .error .notAResponse := rfl
theorem test_decode_off_the_wire :
    decode 0 (.event .tmo) = .ok .tmo ∧ decode 0 (.event (.arm 256)) = .ok (.arm 256) ∧ decode 0 (.event .cpl) = .ok .cpl ∧
      decode 0 (.event .rst) = .ok .rst := ⟨rfl, rfl, rfl, rfl⟩

/-- The second frame of S1: `01 02 FD BB x128 80`. -/
theorem test_decode_frame :
    (match decode 0 (.frame ([0b00000001, 0b00000010, 0b11111101] ++ List.replicate 128 0b10111011 ++ [0b10000000])) with
      | .ok i => some i
      | .error _ => none) = some (.data 0x02 0xFD (List.replicate 128 0xBB) 0x80) := by decide +kernel

theorem test_decode_frame_short : decode 0 (.frame (0x01 :: List.replicate 130 0)) = .error .wrongFrameLength := rfl
theorem test_decode_frame_long : decode 0 (.frame (0x01 :: List.replicate 132 0)) = .error .wrongFrameLength := rfl
theorem test_decode_frame_no_marker : decode 0 (.frame (0x02 :: List.replicate 131 0)) = .error .noStartMarker := rfl

/-- The opcode table's words: one byte for a row of one symbol, byte 0 the first of a frame. -/
theorem test_table_word_byte :
    decodeTableWord 8 0x01 = some .dataSoh ∧ decodeTableWord 8 0x04 = some .eot ∧ decodeTableWord 8 0x06 = some .ack ∧
      decodeTableWord 8 0x15 = some .nak ∧ decodeTableWord 8 0x00 = some (.illegal 0) := by decide

theorem test_table_word_frame : decodeTableWord 1056 0xFD0201 = some (.data 0x02 0xFD (List.replicate 128 0) 0) := by
  decide +kernel

/-! ## One step, from the vectors of `95_test_vectors.md` -/

/-- The nine registers in the vectors' order, everything outside the engine empty. -/
def start (st : Proto) (pos exp blk : Byte) (dup : Bool) (sum : Byte) (cur cap : Nat) (err : ErrFlag) : State :=
  { State.reset with st, pos, exp, blk, dup, sum, cur, cap, err }

/-- The state after one event, if there is one. -/
def after (s : State) (e : Event) : Option State :=
  match step { s with input := [e] } with
  | .next t => some t
  | .fault _ => none
  | .refused _ => none

/-- Why an event is refused, if it is. -/
def refusal (s : State) (e : Event) : Option Refusal :=
  match step { s with input := [e] } with
  | .next _ => none
  | .fault _ => none
  | .refused r => some r

/-- V17. -/
theorem test_soh : after (start .await 0 0x01 0x33 false 0x44 0 256 .none) (.rx 0x01) =
    some (start .await 1 0x01 0x33 false 0x44 0 256 .none) := by decide

/-- V18: the start marker is taken although nothing fits. -/
theorem test_soh_full : after (start .xfer 0 0x05 0x33 false 0x44 512 0 .none) (.rx 0x01) =
    some (start .xfer 1 0x05 0x33 false 0x44 512 0 .none) := by decide

/-- V19. -/
theorem test_eot : after (start .await 0 0x01 0x33 true 0x44 0 256 .none) (.rx 0x04) =
    some { start .done 0 0x01 0x33 true 0x44 0 256 .none with out := [.tx 0x06] } := by decide

/-- V20. -/
theorem test_eot_xfer : after (start .xfer 0 0x03 0x33 true 0x44 256 0 .none) (.rx 0x04) =
    some { start .done 0 0x03 0x33 true 0x44 256 0 .none with out := [.tx 0x06] } := by decide

/-- V22. -/
theorem test_illegal : after (start .await 0 0x01 0x33 true 0x44 0 256 .none) (.rx 0x06) =
    some { start .await 0 0x01 0x33 true 0x44 0 256 .none with out := [.tx 0x15] } := by decide

/-- V34: a duplicate across the wrap. -/
theorem test_blk_duplicate : after (start .xfer 1 0x00 0x33 false 0x44 32640 256 .none) (.rx 0xFF) =
    some (start .xfer 2 0x00 0xFF true 0x44 32640 256 .none) := by decide

/-- V27: the predecessor is no duplicate in AWAIT. -/
theorem test_blk_rejected : after (start .await 1 0x01 0x33 true 0x44 0 256 .none) (.rx 0x00) =
    some { start .await 0 0x01 0x33 true 0x44 0 256 .none with out := [.tx 0x15] } := by decide

/-- V38. -/
theorem test_cmp : after (start .await 2 0x01 0x01 false 0x5A 0 256 .none) (.rx 0xFE) =
    some (start .await 3 0x01 0x01 false 0x00 0 256 .none) := by decide

/-- V46: the complement of `exp`, not of `blk`. -/
theorem test_cmp_rejected : after (start .xfer 2 0x03 0x02 true 0x77 256 256 .none) (.rx 0xFC) =
    some { start .xfer 0 0x03 0x02 true 0x77 256 256 .none with out := [.tx 0x15] } := by decide

/-- V47. -/
theorem test_pay : after (start .xfer 5 0x02 0x02 false 0x10 128 128 .none) (.rx 0xF5) =
    some { start .xfer 6 0x02 0x02 false 0x05 128 128 .none with
      out := [.sinkWrite 130 0xF5], dest := [(130, 0xF5)] } := by decide

/-- V50: one byte short, nothing is written. -/
theorem test_pay_no_room : after (start .xfer 5 0x02 0x02 false 0x10 128 127 .none) (.rx 0xF5) =
    some (start .xfer 6 0x02 0x02 false 0x05 128 127 .none) := by decide

/-- V56: `exp` wraps. -/
theorem test_sum_accept : after (start .xfer 131 0xFF 0xFF false 0xC0 32512 384 .none) (.rx 0xC0) =
    some { start .xfer 0 0x00 0xFF false 0xC0 32640 256 .none with out := [.tx 0x06] } := by decide

/-- V62: Overflow, one byte short. -/
theorem test_sum_overflow : after (start .xfer 131 0x02 0x02 false 0x80 128 127 .none) (.rx 0x80) =
    some { start .done 0 0x02 0x02 false 0x80 128 127 .overflow with out := [.tx 0x15] } := by decide

/-- V78. -/
theorem test_tmo : after (start .await 50 0x01 0x01 false 0x39 0 128 .none) .tmo =
    some { start .await 0 0x01 0x01 false 0x39 0 128 .none with out := [.tx 0x15] } := by decide

/-- V85: not enabled in DONE. -/
theorem test_tmo_done : refusal (start .done 0 0x03 0 false 0 256 0 .none) .tmo = some .notEnabled := by decide

/-- V72. -/
theorem test_arm : after (start .idle 0 0x03 0x02 false 0x80 256 0 .overflow) (.arm 512) =
    some (start .await 0 0x01 0x02 false 0x80 0 512 .none) := by decide

/-- V75. -/
theorem test_arm_rejected : after (start .xfer 40 0x02 0x02 false 0x66 128 128 .none) (.arm 512) =
    some { start .xfer 40 0x02 0x02 false 0x66 128 128 .none with out := [.armRejected] } := by decide

/-- V82. -/
theorem test_cpl : after (start .done 0 0x02 0x02 true 0x80 128 0 .overflow) .cpl =
    some { start .idle 0 0x02 0x02 true 0x80 128 0 .overflow with out := [.complete 128 .overflow] } := by decide

/-- V86: not enabled in AWAIT. -/
theorem test_cpl_await : refusal (start .await 0 0x01 0 false 0 0 256 .none) .cpl = some .notEnabled := by decide

/-- V87, with a byte in the destination. -/
theorem test_rst : after { start .xfer 43 0x02 0x02 false 0x38 128 256 .none with dest := [(128, 0xBB)] } .rst =
    some { start .idle 0 0x01 0x00 false 0x00 0 0 .none with dest := [(128, 0xBB)] } := by decide

/-- A response still to be delivered goes out before the next event is taken (R54, R104). -/
theorem test_ack : after { start .idle 0 0x01 0 false 0 0 0 .none with pend := [.tx 0x06] } .rst =
    some { start .idle 0 0x01 0 false 0 0 0 .none with input := [.rst], out := [.tx 0x06] } := by decide

theorem test_nak : after { start .idle 0 0x01 0 false 0 0 0 .none with pend := [.tx 0x15] } .rst =
    some { start .idle 0 0x01 0 false 0 0 0 .none with input := [.rst], out := [.tx 0x15] } := by decide

/-- The state `exec` answers for a whole frame, if there is one. -/
def attempted (i : Instr) (s : State) : Option State :=
  match exec i s with
  | .next t => some t
  | .fault _ => none
  | .refused _ => none

/-- V65: the registers, the number of writes and the last byte written. -/
theorem test_data : (attempted (.data 0x01 0xFE (List.replicate 128 0xAA) 0x00) (start .await 0 0x01 0x00 false 0 0 256 .none)).map
    (fun t => ({ t with dest := [], out := [] }, t.transmitted, t.out.length, t.dest.read 127, t.dest.read 128)) =
      some (start .xfer 0 0x02 0x01 false 0x00 128 128 .none, [0x06], 129, some 0xAA, none) := by decide +kernel

/-- V91, its first two bytes: the attempt ends at the block number, the other 130 bytes stay unread. -/
theorem test_data_cut : (attempted (.data 0x02 0xFD (List.replicate 128 0xAA) 0x00) (start .await 0 0x01 0x00 false 0 0 256 .none)).map
    (fun t => ({ t with input := [], out := [] }, t.transmitted, t.input.length, t.input.take 2)) =
      some (start .await 0 0x01 0x00 false 0x00 0 256 .none, [0x15], 130, [.rx 0xFD, .rx 0xAA]) := by decide +kernel

/-- A placed word is the first instruction a step runs after reset. -/
theorem test_place_soh : (match step (State.reset.withFetchWord 8 0x01) with | .next t => some t | _ => none) =
    some { State.reset with st := .await, pos := 1 } := by decide

theorem test_place_nak : (match step (State.reset.withFetchWord 8 0x15) with | .next t => some t | _ => none) =
    some { State.reset with out := [.tx 0x15] } := by decide

/-- The checksums of V2, V7 and V11. -/
theorem test_checksum :
    checksumOf (List.replicate 128 0xBB) = 0x80 ∧ checksumOf ((List.range 128).map (BitVec.ofNat 8 ·)) = 0xC0 ∧
      checksumOf ([0x01, 0x04, 0x06, 0x15, 0x18] ++ List.replicate 123 0) = 0x38 := by decide +kernel

/-! ## Witnesses: a concrete state and operands that meet the hypotheses of each obligation -/

/-- A session of 256 bytes just opened. -/
def fresh : State := start .await 0 0x01 0x00 false 0x00 0 256 .none

/-- One block accepted, room for one more. -/
def between : State := start .xfer 0 0x02 0x01 false 0x00 128 128 .none

/-- One block accepted, no room left. -/
def full : State := start .xfer 0 0x02 0x01 false 0x00 128 0 .none

/-- The second block's payload, one byte read. -/
def payload : State :=
  { start .xfer 4 0x02 0x02 false 0xBB 128 128 .none with out := [.sinkWrite 128 0xBB], dest := [(128, 0xBB)] }

/-- The first block with its payload of zeros read, the checksum byte missing. -/
def last : State :=
  { start .await 131 0x01 0x01 false 0x00 0 128 .none with dest := (List.range 128).map fun k => (k, 0x00) }

/-- A session ended by Overflow. -/
def overflown : State := start .done 0 0x02 0x02 false 0x80 128 0 .overflow

/-- A payload. -/
def zeros : List Byte := List.replicate 128 0

/-- The invariants of a small state: the bound by `2^W`, which nothing can evaluate, by hand. -/
theorem inv_fresh : Inv fresh := by constructor <;> first | exact lt_two_pow_W (by decide) | decide
theorem inv_between : Inv between := by constructor <;> first | exact lt_two_pow_W (by decide) | decide
theorem inv_full : Inv full := by constructor <;> first | exact lt_two_pow_W (by decide) | decide
theorem inv_payload : Inv payload := by constructor <;> first | exact lt_two_pow_W (by decide) | decide
theorem inv_overflown : Inv overflown := by constructor <;> first | exact lt_two_pow_W (by decide) | decide
theorem inv_last : Inv last where
  delivered := rfl
  posRange := by decide
  posClosed := by decide
  curBlocks := by decide
  expCounts := by decide
  awaitFresh := fun _ => rfl
  xferBegun := by decide
  dupInXfer := by decide
  blkKnown := fun _ => rfl
  errClosed := by decide
  roomBounded := lt_two_pow_W (by decide)
  offered := by decide
  destWf := List.pairwise_map.mpr List.pairwise_lt_range
  sentResponses := by decide

/-- The invariants with other events offered. -/
theorem inv_offered {s : State} {es : List Event} (h : Inv s) (he : ∀ e ∈ es, e.wellFormed = true) :
    Inv { s with input := es } :=
  ⟨h.delivered, h.posRange, h.posClosed, h.curBlocks, h.expCounts, h.awaitFresh, h.xferBegun, h.dupInXfer, h.blkKnown,
    h.errClosed, h.roomBounded, he, h.destWf, h.sentResponses⟩

/-- The state meets the invariants and takes the event. -/
def Takes (s : State) (e : Event) : Prop :=
  Inv { s with input := [e] } ∧ ∃ t, step { s with input := [e] } = .next t

theorem takes_of {s t : State} {e : Event} (h : Inv s) (he : e.wellFormed = true) (ht : step { s with input := [e] } = .next t) :
    Takes s e := ⟨inv_offered h (by simpa using he), t, ht⟩

theorem witness_StartMarkerMovesToBlockNumber :
    ((fresh.st = .await ∨ fresh.st = .xfer) ∧ fresh.pend = [] ∧ fresh.pos = 0#8) ∧
      (full.st = .await ∨ full.st = .xfer) ∧ full.pend = [] ∧ full.pos = 0#8 := by decide

/-- The expected number, the predecessor, the predecessor across the wrap, and a number rejected in either state. -/
theorem witness_BlockNumberIsNewDuplicateOrRejected :
    (let s := { fresh with pos := 1 }
     (s.st = .await ∨ s.st = .xfer) ∧ s.pend = [] ∧ s.pos = 1#8 ∧ 0x01#8 = s.exp ∧ ¬ (0x00#8 = s.exp) ∧ s.st ≠ .xfer) ∧
    (let s := { between with pos := 1 }
     (s.st = .await ∨ s.st = .xfer) ∧ s.pend = [] ∧ s.pos = 1#8 ∧ 0x01#8 ≠ s.exp ∧ s.st = .xfer ∧ 0x01#8 = s.exp - 1#8 ∧
       0x03#8 ≠ s.exp ∧ 0x03#8 ≠ s.exp - 1#8) ∧
    (let s := start .xfer 1 0x00 0xFF false 0 32640 256 .none
     (s.st = .await ∨ s.st = .xfer) ∧ s.pend = [] ∧ s.pos = 1#8 ∧ 0xFF#8 ≠ s.exp ∧ 0xFF#8 = s.exp - 1#8) := by decide

theorem witness_ComplementOpensPayloadOrIsRejected :
    let s := start .await 2 0x01 0x01 false 0x5A 0 256 .none
    (s.st = .await ∨ s.st = .xfer) ∧ s.pend = [] ∧ s.pos = 2#8 ∧ (0xFE#8).toNat = 255 - s.blk.toNat ∧
      (0xFF#8).toNat ≠ 255 - s.blk.toNat := by decide

/-- The first and the last payload position, a block that just fits and one that is a byte short. -/
theorem witness_PayloadByteIsSummedAndStaged :
    (let s := start .await 3 0x01 0x01 false 0 0 128 .none
     (s.st = .await ∨ s.st = .xfer) ∧ s.pend = [] ∧ 3 ≤ s.pos.toNat ∧ s.pos.toNat ≤ 130 ∧ s.dup = false ∧ 128 ≤ s.cap) ∧
    (let s := start .xfer 130 0x02 0x02 false 0 128 127 .none
     (s.st = .await ∨ s.st = .xfer) ∧ s.pend = [] ∧ 3 ≤ s.pos.toNat ∧ s.pos.toNat ≤ 130 ∧ ¬ 128 ≤ s.cap) := by decide

theorem witness_WrongChecksumIsNaked :
    (last.st = .await ∨ last.st = .xfer) ∧ last.pend = [] ∧ last.pos = 131#8 ∧ 0x01#8 ≠ last.sum := by decide

/-- With no capacity left (V58). -/
theorem witness_DuplicateIsAcknowledgedWithoutCommit :
    let s := start .xfer 131 0x02 0x01 true 0 128 0 .none
    (s.st = .await ∨ s.st = .xfer) ∧ s.pend = [] ∧ s.pos = 131#8 ∧ 0x00#8 = s.sum ∧ s.dup = true := by decide

/-- One byte short (V62). -/
theorem witness_BlockThatDoesNotFitOverflows :
    let s := start .xfer 131 0x02 0x02 false 0x80 128 127 .none
    (s.st = .await ∨ s.st = .xfer) ∧ s.pend = [] ∧ s.pos = 131#8 ∧ 0x80#8 = s.sum ∧ s.dup = false ∧ s.cap < 128 := by
  decide

/-- An exact fit. -/
theorem witness_BlockThatFitsIsCommitted :
    (last.st = .await ∨ last.st = .xfer) ∧ last.pend = [] ∧ last.pos = 131#8 ∧ 0x00#8 = last.sum ∧ last.dup = false ∧
      128 ≤ last.cap := by decide

theorem witness_EotIsAcknowledgedAndEndsSession :
    ((full.st = .await ∨ full.st = .xfer) ∧ full.pend = [] ∧ full.pos = 0#8) ∧ ∃ t, exec .eot full = .next t :=
  ⟨by decide, _, rfl⟩

/-- The values next to SOH and EOT. -/
theorem witness_IllegalFirstByteIsNaked :
    (Instr.illegal 0x00).wellFormed = true ∧ (Instr.illegal 0x02).wellFormed = true ∧ (Instr.illegal 0x03).wellFormed = true ∧
      (Instr.illegal 0x05).wellFormed = true ∧ (fresh.st = .await ∨ fresh.st = .xfer) ∧ fresh.pend = [] ∧ fresh.pos = 0#8 := by
  decide

theorem witness_TimeoutAbandonsFrameWithNak :
    ((payload.st = .await ∨ payload.st = .xfer) ∧ payload.pend = []) ∧ (fresh.st = .await ∨ fresh.st = .xfer) ∧ fresh.pend = [] := by
  decide

theorem witness_ArmInIdleOpensSession : State.reset.st = .idle := by decide
theorem witness_ArmElsewhereIsRejected : fresh.st ≠ .idle ∧ between.st ≠ .idle ∧ overflown.st ≠ .idle := by decide
theorem witness_CompletionReportsCursorAndFlag : overflown.st = .done := by decide

theorem witness_EventsWithoutARuleAreNotEnabled :
    ((State.reset.st = .idle ∨ State.reset.st = .done) ∧ ∃ pos b, decodeRx pos b = .ok .eot) ∧
      (overflown.st = .idle ∨ overflown.st = .done) ∧ fresh.st ≠ .done := ⟨⟨.inl rfl, 0, 0x04, rfl⟩, by decide⟩

theorem witness_RaiseMeansNakAndPositionZero :
    Defect.timeoutDuringFrame = .framingError ∨ Defect.timeoutDuringFrame = .checksumError ∨
      Defect.timeoutDuringFrame = .timeoutDuringFrame := by decide

theorem witness_StopsOutsideTheRulesAreNamed :
    ((payload.st = .await ∨ payload.st = .xfer) ∧ payload.pend = [] ∧ decodeRx 0 0x01 = .ok .dataSoh ∧
      Instr.dataSoh.standsAt payload.pos = false ∧ payload.pos ≠ 0#8) ∧
    (let s := { fresh with pos := 132, input := [.rx 0x01] }
     s.pend = [] ∧ s.input = .rx 0x01 :: [] ∧ 132 ≤ s.pos.toNat) ∧
    (fresh.pend = [] ∧ fresh.input = []) ∧
    { fresh with pend := [.tx 0x18] }.pend = .tx 0x18 :: [] ∧ 0x18#8 ≠ 0x06#8 ∧ 0x18#8 ≠ 0x15#8 :=
  ⟨⟨.inr rfl, rfl, rfl, by decide, by decide⟩, by decide, by decide, by decide⟩

theorem witness_FrameAttemptAlwaysEndsWithOneResponse :
    (Instr.data 0x02 0xFD zeros 0x00).wellFormed = true ∧ (between.st = .await ∨ between.st = .xfer) ∧ between.pend = [] ∧
      between.pos = 0#8 := by decide +kernel

/-- A number that is neither, and a right number with a complement that is one off. -/
theorem witness_HeaderDefectLeavesTheRestUnread :
    (between.st = .await ∨ between.st = .xfer) ∧ between.pend = [] ∧ between.pos = 0#8 ∧
      (0x03#8 ≠ between.exp ∧ ¬ (between.st = .xfer ∧ 0x03#8 = between.exp - 1#8)) ∧
      (0x02#8 = between.exp ∧ 0xFC#8 ≠ 255#8 - 0x02#8) ∧
      (between.st = .xfer ∧ 0x01#8 = between.exp - 1#8) ∧ 0xFD#8 ≠ 255#8 - 0x01#8 := by decide

/-- An exact fit. -/
theorem witness_GoodFrameIsAccepted :
    zeros.length = 128 ∧ (between.st = .await ∨ between.st = .xfer) ∧ between.pend = [] ∧ between.pos = 0#8 ∧
      128 ≤ between.cap := by decide +kernel

theorem witness_DuplicateFrameIsNotWrittenAgain :
    zeros.length = 128 ∧ full.st = .xfer ∧ full.pend = [] ∧ full.pos = 0#8 := by decide +kernel

/-- One byte short. -/
theorem witness_FrameThatDoesNotFitIsNotWritten :
    let s := { full with cap := 127 }
    zeros.length = 128 ∧ (s.st = .await ∨ s.st = .xfer) ∧ s.pend = [] ∧ s.pos = 0#8 ∧ s.cap < 128 := by decide +kernel

theorem witness_CorruptFrameLeavesResidueOnlyInStaging :
    zeros.length = 128 ∧ 0x01#8 ≠ checksumOf zeros ∧ (between.st = .await ∨ between.st = .xfer) ∧ between.pend = [] ∧
      between.pos = 0#8 ∧ 128 ≤ between.cap := by decide +kernel

theorem witness_FrameIsItsByteSteps :
    (Instr.data 0x01 0xFE zeros 0x00).wellFormed = true ∧ (fresh.st = .await ∨ fresh.st = .xfer) ∧ fresh.pend = [] ∧
      fresh.pos = 0#8 := by decide +kernel

/-- Scenario 1 of the source (S8), an exact fit. -/
theorem witness_TransferDeliversConcatenation :
    let ps := [List.replicate 128 0xAA#8, List.replicate 128 0xBB#8]
    State.reset.st = .idle ∧ State.reset.pend = [] ∧ (∀ p ∈ ps, p.length = 128) ∧ 128 * ps.length ≤ 256 := by
  decide +kernel

theorem witness_DecodeOfEncodeIsTheInstruction :
    ((Instr.dataPay 0x04).wellFormed = true ∧ (Instr.dataPay 0x04).standsAt 3 = true ∧ (Instr.dataPay 0x04).standsAt 130 = true) ∧
      (Instr.data 0x02 0xFD zeros 0x00).wellFormed = true ∧ (Instr.data 0x02 0xFD zeros 0x00).standsAt 0 = true := by
  decide +kernel

theorem witness_DecodedSignalIsTheEncoding :
    (Signal.event (.rx 0x80)).wellFormed = true ∧ decode 131 (.event (.rx 0x80)) = .ok (.dataSum 0x80) ∧
      (Signal.event (.arm 256)).wellFormed = true ∧ decode 0 (.event (.arm 256)) = .ok (.arm 256) :=
  ⟨rfl, rfl, inWidth_iff.mpr (lt_two_pow_W (by decide)), rfl⟩

theorem witness_NaturalsAreTheWBitOperations :
    (Inv payload ∧ fits payload = true ∧ 3 ≤ payload.pos.toNat ∧ payload.pos.toNat ≤ 130) ∧ Inv last ∧ fits last = true :=
  ⟨⟨inv_payload, by decide⟩, inv_last, by decide⟩

theorem witness_StepRunsTheDecodedInstruction :
    fresh.pend = [] ∧ { fresh with input := [.rx 0x01, .tmo] }.input = .rx 0x01 :: [.tmo] ∧
      decodeEvent fresh.pos (.rx 0x01) = .ok .dataSoh := ⟨rfl, rfl, rfl⟩

theorem witness_PendingOutputsAreDeliveredFirst :
    let s := { overflown with pend := [.sinkWrite 128 0xBB, .tx 0x15] }
    s.pend ≠ [] ∧ ∀ o ∈ s.pend, deliverable o = true := by decide

theorem witness_EveryStepKeepsTheInvariants : Takes payload (.rx 0x55) ∧ Takes last (.rx 0x00) ∧ Takes overflown .cpl :=
  ⟨takes_of inv_payload rfl rfl, takes_of inv_last rfl rfl, takes_of inv_overflown rfl rfl⟩

theorem witness_StepIsTheTransitionTable :
    Takes payload (.rx 0x55) ∧ TableRow payload (.rx 0x55) [.sinkWrite (128 + (4 - 3)) 0x55]
      { payload with pos := 4#8 + 1#8, sum := 0xBB#8 + 0x55 } :=
  ⟨takes_of inv_payload rfl rfl, .payloadWritten payload 0x55 (.inr rfl) (by decide) rfl (by decide)⟩

theorem witness_TransitionTableRowsAreExclusiveAndExhaustive :
    (∃ os u, TableRow fresh .tmo os u) ∧ Inv fresh ∧ enabled fresh .tmo = true ∧ enabled fresh .cpl = false :=
  ⟨⟨_, _, .timeout fresh (.inl rfl)⟩, inv_fresh, by decide⟩

/-- An enabled event and one that is not. -/
theorem witness_EnabledEventsAlwaysRun :
    Inv { fresh with input := [.tmo] } ∧ enabled fresh .tmo = true ∧ Inv { overflown with input := [.tmo] } ∧
      enabled overflown .tmo = false := ⟨inv_offered inv_fresh (by decide), rfl, inv_offered inv_overflown (by decide), rfl⟩

/-- EOT, an accepted block with an exact fit, a timeout, an illegal byte, a wrong checksum byte, and a byte that ends
nothing. -/
theorem witness_OneResponsePerEndedAttempt :
    Takes fresh (.rx 0x04) ∧ Takes last (.rx 0x00) ∧ Takes payload .tmo ∧ Takes fresh (.rx 0x05) ∧ Takes last (.rx 0x01) ∧
      Takes payload (.rx 0x04) :=
  ⟨takes_of inv_fresh rfl rfl, takes_of inv_last rfl rfl, takes_of inv_payload rfl rfl, takes_of inv_fresh rfl rfl, takes_of inv_last rfl rfl,
    takes_of inv_payload rfl rfl⟩

theorem inv_payload_at (pos : Byte) (cap : Nat) (hp : pos.toNat ≤ 131) (hc : cap ≤ 256) :
    Inv { payload with pos := pos, cap := cap } where
  delivered := rfl
  posRange := hp
  posClosed := fun e => by cases e
  curBlocks := inv_payload.curBlocks
  expCounts := inv_payload.expCounts
  awaitFresh := fun e => by cases e
  xferBegun := inv_payload.xferBegun
  dupInXfer := fun _ e => by cases e
  blkKnown := fun _ => rfl
  errClosed := fun e => by cases e
  roomBounded := lt_two_pow_W (show 128 + cap < 65536 from Nat.lt_of_le_of_lt (Nat.add_le_add_left hc 128) (by decide))
  offered := inv_payload.offered
  destWf := inv_payload.destWf
  sentResponses := inv_payload.sentResponses

/-- The first and the last payload position with an exact fit, and for the other clause the positions beside them and a block
a byte short. -/
theorem witness_StepStoresOneByteInStagingOrNone :
    (Takes { payload with pos := 3, cap := 128 } (.rx 0x55) ∧ Takes { payload with pos := 130, cap := 128 } (.rx 0x55) ∧
      staged { payload with pos := 3, cap := 128 } = true ∧ staged { payload with pos := 130, cap := 128 } = true) ∧
    Takes { payload with pos := 2, cap := 128 } (.rx 0xFD) ∧ Takes { payload with pos := 131, cap := 128 } (.rx 0xBB) ∧
      Takes { payload with pos := 3, cap := 127 } (.rx 0x55) ∧ staged { payload with pos := 3, cap := 127 } = false :=
  ⟨⟨takes_of (inv_payload_at _ _ (by decide) (by decide)) rfl rfl,
      takes_of (inv_payload_at _ _ (by decide) (by decide)) rfl rfl, by decide⟩,
    takes_of (inv_payload_at _ _ (by decide) (by decide)) rfl rfl,
    takes_of (inv_payload_at _ _ (by decide) (by decide)) rfl rfl,
    takes_of (inv_payload_at _ _ (by decide) (by decide)) rfl rfl, by decide⟩

/-- The last committed byte. -/
theorem witness_CommittedBytesNeverChange : Takes payload (.rx 0x55) ∧ 127 < payload.cur :=
  ⟨takes_of inv_payload rfl rfl, by decide⟩

/-- One byte staged, and a whole block of which the checksum byte is missing. -/
theorem witness_AcceptedBlockIsTheBytesReceived :
    (Takes payload (.rx 0x55) ∧ Staging [0xBB] payload) ∧ Takes last (.rx 0x00) ∧ Staging zeros last ∧
      ∃ t, step { last with input := [.rx 0x00] } = .next t ∧ last.cur < t.cur :=
  ⟨⟨takes_of inv_payload rfl rfl, by constructor <;> decide⟩, takes_of inv_last rfl rfl, by constructor <;> decide +kernel,
    _, rfl, by decide⟩

theorem witness_CapacityIsConserved :
    Takes last (.rx 0x00) ∧ .rx 0x00 ≠ Event.rst ∧ ¬ ((∃ c, Event.rx 0x00 = .arm c) ∧ last.st = .idle) :=
  ⟨takes_of inv_last rfl rfl, by decide, fun h => by cases h.2⟩

theorem witness_SessionRegistersHaveThreeWriters :
    Takes last (.rx 0x01) ∧ .rx 0x01 ≠ Event.rst ∧ ¬ ((∃ c, Event.rx 0x01 = .arm c) ∧ last.st = .idle) ∧
      ¬ (∃ b, Event.rx 0x01 = .rx b ∧ last.pos = 131#8 ∧ b = last.sum ∧ last.dup = false ∧ 128 ≤ last.cap) :=
  ⟨takes_of inv_last rfl rfl, by decide, fun h => (by cases h.2), by rintro ⟨b, e, -, h, -⟩; cases e; exact absurd h (by decide)⟩

/-- A byte rejected where each clause's registers could be written: a number two ahead at `pos` = 1, a complement that is one
off at `pos` = 2 (V39), and a wrong checksum of a block that does not fit (V63). -/
theorem witness_FrameRegistersAreWrittenAtTheirPositions :
    (let s := { between with pos := 1 }
     s.pend = [] ∧ (∃ t, step { s with input := [.rx 0x04] } = .next t) ∧ s.pos = 1#8 ∧
       ¬ (0x04#8 = s.exp ∨ s.st = .xfer ∧ 0x04#8 = s.exp - 1#8)) ∧
    (let s := start .await 2 0x01 0x01 false 0x5A 0 256 .none
     s.pend = [] ∧ (∃ t, step { s with input := [.rx 0xFF] } = .next t) ∧ s.pos = 2#8 ∧ 0xFF#8 ≠ 255#8 - s.blk) ∧
    (let s := start .xfer 131 0x02 0x02 false 0x80 128 0 .none
     s.pend = [] ∧ (∃ t, step { s with input := [.rx 0x7F] } = .next t) ∧ s.pos = 131#8 ∧ s.dup = false ∧ s.cap < 128 ∧
       0x7F#8 ≠ s.sum ∧ s.st ≠ .idle) :=
  ⟨⟨rfl, ⟨_, rfl⟩, by decide⟩, ⟨rfl, ⟨_, rfl⟩, by decide⟩, rfl, ⟨_, rfl⟩, by decide⟩

/-- A step into DONE, a step out of it with its completion, and a step that delivers none. -/
theorem witness_CompletionIsDeliveredOnceAfterTheResponse :
    (Takes fresh (.rx 0x04) ∧ fresh.st ≠ .done ∧ ∃ t, step { fresh with input := [.rx 0x04] } = .next t ∧ t.st = .done) ∧
      (Takes overflown .cpl ∧ overflown.st = .done) ∧ Takes payload .tmo :=
  ⟨⟨takes_of inv_fresh rfl rfl, by decide, _, rfl, rfl⟩, ⟨takes_of inv_overflown rfl rfl, rfl⟩, takes_of inv_payload rfl rfl⟩

theorem witness_ResetEmitsAndUndoesNothing :
    overflown.pend = [] ∧ { overflown with input := [.rst, .tmo] }.input = .rst :: [.tmo] := by decide

theorem witness_KeepalivesRepeatWithoutLimit : fresh.st = .await ∧ fresh.pos = 0#8 ∧ fresh.pend = [] := by decide

/-- Each kind of defect in front of a session with one block accepted, and an endless sequence of one of them. -/
theorem witness_DefectsForEverMeanNaksForEver :
    ((between.st = .await ∨ between.st = .xfer) ∧ between.pos = 0#8 ∧ between.pend = [] ∧ between.input = []) ∧
      Defective between [.rx 0x06] ∧ Defective between [.rx 0x01, .rx 0x03] ∧ Defective between [.rx 0x01, .rx 0x02, .rx 0xFC] ∧
      Defective between ((encode (.data 0x02 (255#8 - 0x02#8) zeros 0x01)).bytes.map .rx) ∧ Defective between [.tmo] ∧
      ∃ env : Nat → List Event, ∀ k, Defective between (env k) :=
  have hz : zeros.length = 128 := List.length_replicate
  have hn : 0x02#8 = between.exp ∨ between.st = .xfer ∧ 0x02#8 = between.exp - 1#8 := .inl rfl
  ⟨by decide, .illegal 0x06 rfl, .wrongNumber 0x03 (by decide) (by decide), .wrongComplement 0x02 0xFC hn (by decide),
    .wrongChecksum 0x02 zeros 0x01 hn hz (by decide +kernel), .timeout 0x02 zeros 0x00 0 hn hz (by decide),
    fun _ => [.rx 0x06], fun _ => .illegal 0x06 rfl⟩

theorem witness_SinkIsNeverRead : payload.pend = [] ∧ Takes payload (.rx 0x55) := ⟨rfl, takes_of inv_payload rfl rfl⟩

/-- The first and the last payload position, and a block that is a byte short. -/
theorem witness_PayloadValueNeverSteersTheEngine :
    Takes { payload with pos := 3, cap := 128 } (.rx 0x04) ∧ Takes { payload with pos := 130, cap := 128 } (.rx 0x04) ∧
      Takes { payload with pos := 130, cap := 127 } (.rx 0x04) :=
  ⟨takes_of (inv_payload_at _ _ (by decide) (by decide)) rfl rfl,
    takes_of (inv_payload_at _ _ (by decide) (by decide)) rfl rfl,
    takes_of (inv_payload_at _ _ (by decide) (by decide)) rfl rfl⟩

theorem witness_ReadIntervalFollowsPosition :
    (fresh.st = .await ∧ fresh.pend = [] ∧ fresh.pos = 0#8) ∧ (last.st = .await ∧ last.pend = [] ∧ last.pos ≠ 0#8) ∧
      (between.st = .xfer ∧ between.pend = [] ∧ between.pos = 0#8) ∧ overflown.st = .done ∧
      { fresh with pend := [.tx 0x15] }.pend ≠ [] := by decide

theorem witness_StimulusFrameIs132Bytes : zeros.length = 128 := by decide +kernel

end Sys2Proof.Tests
end

section
namespace Sys2Proof.Machine

theorem exec_dataSoh (s : State) : exec .dataSoh s = receiving .dataSoh s (s.setPos 1#8) := rfl

theorem standsAt_dataSoh_iff {pos : Byte} : Instr.dataSoh.standsAt pos = true ↔ pos = 0#8 := by
  simp [Instr.standsAt, BitVec.toNat_eq]

/-- Settles O1 (R72): a read is pending in AWAIT and XFER alike, and the marker stands at `pos` = 0. Neither condition
reads `cap`. -/
theorem startMarkerMovesToBlockNumber : Obligations.StartMarkerMovesToBlockNumber := by
  intro s hst hpend hpos
  have hread : readPending s = true := readPending_iff.mpr ⟨hst, hpend⟩
  have hstands : Instr.dataSoh.standsAt s.pos = true := standsAt_dataSoh_iff.mpr hpos
  exact (exec_dataSoh s).trans (receiving_of hread hstands)

end Sys2Proof.Machine
end

section
namespace Sys2Proof.Machine

/-! ## The checksum byte (`41_block_validator.md`) -/

theorem exec_dataSum (b : Byte) (s : State) :
    exec (.dataSum b) s = receiving (.dataSum b) s (s.conclude (classify s b)) := rfl

theorem standsAt_dataSum_iff {b pos : Byte} : (Instr.dataSum b).standsAt pos = true ↔ pos = 131#8 := by
  simp [Instr.standsAt, BitVec.toNat_eq]

/-- In an open session the checksum byte at `pos` = 131 is always taken, and what follows is its class alone (R77, R81). -/
theorem exec_dataSum_of_open {s : State} (b : Byte) (hst : s.st = .await ∨ s.st = .xfer) (hpend : s.pend = [])
    (hpos : s.pos = 131#8) : exec (.dataSum b) s = .next (s.conclude (classify s b)) :=
  (exec_dataSum b s).trans (receiving_of (readPending_iff.mpr ⟨hst, hpend⟩) (standsAt_dataSum_iff.mpr hpos))

theorem sumOk_iff {s : State} {b : Byte} : sumOk s b = true ↔ b = s.sum := by simp [sumOk]

/-- R81 compares the checksum first, so a wrong one hides `dup` and `cap`. -/
theorem classify_of_wrong_sum {s : State} {b : Byte} (h : b ≠ s.sum) : classify s b = .checksumError := by
  have hsum : ¬ sumOk s b = true := mt sumOk_iff.mp h
  simp [classify, hsum]

/-- R81 asks `dup` before the room, so a duplicate is never an Overflow. -/
theorem classify_of_duplicate {s : State} {b : Byte} (h : b = s.sum) (hdup : s.dup = true) :
    classify s b = .duplicate := by
  have hsum : sumOk s b = true := sumOk_iff.mpr h
  simp [classify, hsum, hdup]

theorem conclude_checksumError (s : State) :
    s.conclude .checksumError = { s with pend := s.pend ++ [.tx 0x15#8], pos := 0#8 } :=
  raise_eq .checksumError s

theorem conclude_duplicate (s : State) :
    s.conclude .duplicate = { s with pend := s.pend ++ [.tx 0x06#8], pos := 0#8 } :=
  acknowledge_eq s

/-- Settles O5 (R82): the class is ChecksumError whatever `dup` and `cap` hold, and what follows it is one NAK and
`pos` = 0. -/
theorem wrongChecksumIsNaked : Obligations.WrongChecksumIsNaked := by
  intro s b hst hpend hpos hsum
  rw [exec_dataSum_of_open b hst hpend hpos, classify_of_wrong_sum hsum, conclude_checksumError, hpend, List.nil_append]

/-- Settles O6 (R83): the class is Duplicate whatever `cap` holds, and what follows it is one ACK and `pos` = 0, with no
commit. -/
theorem duplicateIsAcknowledgedWithoutCommit : Obligations.DuplicateIsAcknowledgedWithoutCommit := by
  intro s b hst hpend hpos hsum hdup
  rw [exec_dataSum_of_open b hst hpend hpos, classify_of_duplicate hsum hdup, conclude_duplicate, hpend, List.nil_append]

end Sys2Proof.Machine
end

section
namespace Sys2Proof.Machine

/-! ## EOT (`42_sequencer.md` section 2) -/

theorem exec_eot (s : State) : exec .eot s = receiving .eot s ((s.emit (.tx Config.ACK)).endSession .none) := rfl

/-- After a session's end no read is pending: a read needs AWAIT or XFER, and the state is DONE (R100). -/
theorem readPending_endSession (f : ErrFlag) (s : State) : readPending (s.endSession f) = false := rfl

/-- Settles O9 (R96): the read is pending and EOT stands at `pos` = 0, so the session ends behind one ACK; DONE reads
nothing more. -/
theorem eotIsAcknowledgedAndEndsSession : Obligations.EotIsAcknowledgedAndEndsSession := by
  intro s hst hpend hpos
  have hstands : Instr.eot.standsAt s.pos = true := by simp [Instr.standsAt, hpos]
  have hrun : exec .eot s = .next ((s.emit (.tx Config.ACK)).endSession .none) :=
    (exec_eot s).trans (receiving_of (readPending_iff.mpr ⟨hst, hpend⟩) hstands)
  constructor
  · simp [hrun, State.emit, State.endSession, hpend]
  · intro t ht
    obtain rfl : (s.emit (.tx Config.ACK)).endSession .none = t := by simpa [hrun] using ht
    exact readPending_endSession .none _

end Sys2Proof.Machine
end

section
namespace Sys2Proof.Machine

/-! ## The instruction an event stands for, run (`42_sequencer.md` R102)

A step is split into the run of the decoded instruction, which leaves its outputs in `pend`, and their delivery. -/

/-- Event `e`, decoded where the parser stands, runs and leaves the engine in `v`, its outputs still to be delivered. -/
def Runs (s : State) (e : Event) (v : State) : Prop := ∃ i, decodeEvent s.pos e = .ok i ∧ exec i s = .next v

/-- A step with nothing left to deliver takes the oldest event and delivers what its run leaves. -/
theorem step_of_runs {s v : State} {e : Event} {rest : List Event} (hpend : s.pend = []) (hin : s.input = e :: rest)
    (h : Runs (s.setInput rest) e v) : step s = drain v := by
  obtain ⟨i, hd, hrun⟩ := h
  have hf : fetch s = .next (i, rest) := fetch_eq_next.mpr ⟨e, hin, hd⟩
  simp [step, cycle, hpend, hf, hrun]

/-- Every received byte's instruction waits for a pending read. -/
theorem exec_of_decodeRx {pos b : Byte} {i : Instr} (s : State) (h : decodeRx pos b = .ok i) :
    ∃ t, exec i s = receiving i s t := by
  unfold decodeRx decodeFirst at h
  split_ifs at h
  all_goals (injection h with h; subst h; exact ⟨_, rfl⟩)

/-- R65, R100, R101: a step takes an enabled event only. -/
theorem enabled_of_step {s t : State} {e : Event} {rest : List Event} (hpend : s.pend = []) (hin : s.input = e :: rest)
    (h : step s = .next t) : enabled s e = true := by
  obtain ⟨e', rest', i, u, hin', hd, hrun, -⟩ := step_cases hpend h
  obtain ⟨rfl, rfl⟩ : e = e' ∧ rest = rest' := by simpa [hin] using hin'
  have open_of_reading : readPending (s.setInput rest) = true → sessionOpen s = true :=
    fun hr => sessionOpen_iff.mpr (readPending_iff.mp hr).1
  cases e with
  | rx b =>
    obtain ⟨w, hw⟩ := exec_of_decodeRx (s.setInput rest) hd
    exact open_of_reading (receiving_eq_next.mp (hw.symm.trans hrun)).1
  | tmo =>
    cases hd
    exact open_of_reading (receiving_eq_next.mp hrun).1
  | arm c => rfl
  | cpl =>
    cases hd
    by_cases hst : s.st = .done
    · simp [enabled, hst]
    · simp [exec, execCpl, hst] at hrun
  | rst => rfl

/-! ## A received byte, position by position (`40_frame_parser.md`, `41_block_validator.md`) -/

section
variable {s : State} (hst : s.st = .await ∨ s.st = .xfer) (hpend : s.pend = [])
include hst hpend

/-- In an open session the byte the decoder reads is taken. -/
theorem runs_received {b : Byte} {i : Instr} {v : State} (hd : decodeRx s.pos b = .ok i) (hx : exec i s = receiving i s v) :
    Runs s (.rx b) v :=
  ⟨i, hd, hx.trans (receiving_of (readPending_iff.mpr ⟨hst, hpend⟩) (decodeRx_standsAt hd))⟩

theorem runs_soh (hpos : s.pos = 0#8) : Runs s (.rx 0x01#8) (s.setPos 1#8) :=
  runs_received hst hpend (i := .dataSoh) (by simp [decodeRx, decodeFirst, hpos]) rfl

theorem runs_eot (hpos : s.pos = 0#8) : Runs s (.rx 0x04#8) ((s.emit (.tx Config.ACK)).endSession .none) :=
  runs_received hst hpend (i := .eot) (by simp [decodeRx, decodeFirst, hpos]) rfl

theorem runs_illegal {b : Byte} (hpos : s.pos = 0#8) (h1 : b ≠ 0x01#8) (h4 : b ≠ 0x04#8) :
    Runs s (.rx b) (s.raise .framingError) :=
  runs_received hst hpend (i := .illegal b) (by simp [decodeRx, decodeFirst, hpos, h1, h4]) rfl

theorem runs_blk (b : Byte) (hpos : s.pos = 1#8) :
    Runs s (.rx b) (if hdrNew s b then s.takeNumber b false else if hdrDup s b then s.takeNumber b true
      else s.raise .framingError) :=
  runs_received hst hpend (i := .dataBlk b) (by simp [decodeRx, hpos]) rfl

theorem runs_cmp (b : Byte) (hpos : s.pos = 2#8) :
    Runs s (.rx b) (if cmpOk s b then s.startPayload else s.raise .framingError) :=
  runs_received hst hpend (i := .dataCmp b) (by simp [decodeRx, hpos]) rfl

theorem runs_pay (b : Byte) (h3 : 3 ≤ s.pos.toNat) (h130 : s.pos.toNat ≤ 130) :
    Runs s (.rx b) (if staged s then (s.emit (.sinkWrite (s.cur + (s.pos.toNat - 3)) b)).takePayload b
      else s.takePayload b) := by
  have hd : decodeRx s.pos b = .ok (.dataPay b) := by
    rw [decodeRx, if_neg (by omega), if_neg (by omega), if_neg (by omega), if_pos h130]
  exact stagingOffset_eq h3 ▸ runs_received hst hpend hd rfl

theorem runs_sum (b : Byte) (hpos : s.pos = 131#8) : Runs s (.rx b) (s.conclude (classify s b)) :=
  runs_received hst hpend (i := .dataSum b) (by simp [decodeRx, hpos]) rfl

end

theorem classify_of_full {s : State} {b : Byte} (h : b = s.sum) (hdup : s.dup = false) (hcap : s.cap < 128) :
    classify s b = .overflow := by
  have hsum : sumOk s b = true := sumOk_iff.mpr h
  have hfits : ¬ fits s = true := by simpa [fits_iff] using hcap
  simp [classify, hsum, hdup, hfits]

theorem classify_of_room {s : State} {b : Byte} (h : b = s.sum) (hdup : s.dup = false) (hcap : 128 ≤ s.cap) :
    classify s b = .accept := by
  have hsum : sumOk s b = true := sumOk_iff.mpr h
  have hfits : fits s = true := fits_iff.mpr hcap
  simp [classify, hsum, hdup, hfits]

/-! ## From a row of the table to the run -/

/-- A row of the table is the run of the event's instruction: the same registers, the row's outputs in `pend`. It needs no
invariant, since a row pins the position it speaks of. -/
theorem runs_of_tableRow {s u : State} {e : Event} {os : List Output} (hpend : s.pend = []) (h : TableRow s e os u) :
    Runs s e (u.setPend os) := by
  have close {v w : State} (hr : Runs s e v) (hv : v = w) : Runs s e w := hv ▸ hr
  cases h with
  | reset => exact close ⟨.rst, rfl, rfl⟩ (by simp [State.resetRegisters, State.setPend, hpend])
  | armAccepted c hidle => exact close ⟨.arm c, rfl, rfl⟩ (by simp [hidle, State.openSession, State.setPend, hpend])
  | armRejected c hbusy =>
    have hidle : s.st ≠ .idle := by rcases hbusy with h | h | h <;> simp [h]
    exact close ⟨.arm c, rfl, rfl⟩ (by simp [hidle, State.emit, State.setPend, hpend])
  | completion hdone =>
    have hx : exec .cpl s = .next (s.emit (.complete s.cur s.err)).release := by simp [exec, execCpl, hdone]
    exact close ⟨.cpl, rfl, hx⟩ (by simp [State.emit, State.release, State.setPend, hpend])
  | timeout hst =>
    have hx : exec .tmo s = .next (s.raise .timeoutDuringFrame) := receiving_of (readPending_iff.mpr ⟨hst, hpend⟩) rfl
    exact close ⟨.tmo, rfl, hx⟩ (by simp [raise_eq, State.setPend, hpend])
  | eot hst hpos =>
    exact close (runs_eot hst hpend hpos) (by simp [State.emit, State.endSession, State.setPend, hpend])
  | soh hst hpos => exact close (runs_soh hst hpend hpos) (by simp [State.setPos, State.setPend, hpend])
  | illegal b hst hpos h1 h4 =>
    exact close (runs_illegal hst hpend hpos h1 h4) (by simp [raise_eq, State.setPend, hpend])
  | newNumber b hst hpos hb =>
    exact close (runs_blk hst hpend b hpos) (by simp [hdrNew, hb, State.takeNumber, State.setPend, hpend])
  | duplicateNumber b hst hpos hb =>
    have hnew : s.exp - 1#8 ≠ s.exp := by bv_omega
    exact close (runs_blk (.inr hst) hpend b hpos)
      (by simp [hdrNew, hdrDup, predecessor, hb, hnew, hst, State.takeNumber, State.setPend, hpend])
  | wrongNumberAwait b hst hpos hb =>
    exact close (runs_blk (.inl hst) hpend b hpos) (by simp [hdrNew, hdrDup, hb, hst, raise_eq, State.setPend, hpend])
  | wrongNumberXfer b hst hpos hb hd =>
    exact close (runs_blk (.inr hst) hpend b hpos)
      (by simp [hdrNew, hdrDup, predecessor, hb, hd, raise_eq, State.setPend, hpend])
  | complement b hst hpos hb =>
    exact close (runs_cmp hst hpend b hpos) (by simp [cmpOk, complementOf, hb, State.startPayload, State.setPend, hpend])
  | wrongComplement b hst hpos hb =>
    exact close (runs_cmp hst hpend b hpos) (by simp [cmpOk, complementOf, hb, raise_eq, State.setPend, hpend])
  | payloadWritten b hst hpos hdup hcap =>
    have hstaged : staged s = true := staged_iff.mpr ⟨hdup, hcap⟩
    exact close (runs_pay hst hpend b hpos.1 hpos.2)
      (by simp [hstaged, State.emit, State.takePayload, addToSum, State.setPend, hpend])
  | payloadNotWritten b hst hpos hno =>
    have hstaged : ¬ staged s = true := by
      rw [staged_iff]
      rintro ⟨hdup, hcap⟩
      rcases hno with h | h
      · simp [hdup] at h
      · omega
    exact close (runs_pay hst hpend b hpos.1 hpos.2)
      (by simp [hstaged, State.takePayload, addToSum, State.setPend, hpend])
  | checksumError b hst hpos hb =>
    exact close (runs_sum hst hpend b hpos)
      (by simp [classify_of_wrong_sum hb, conclude_checksumError, State.setPend, hpend])
  | duplicate b hst hpos hb hdup =>
    exact close (runs_sum (.inr hst) hpend b hpos)
      (by simp [classify_of_duplicate hb hdup, conclude_duplicate, State.setPend, hpend])
  | overflow b hst hpos hb hdup hcap =>
    exact close (runs_sum hst hpend b hpos)
      (by simp [classify_of_full hb hdup hcap, State.conclude, raise_eq, State.setPend, hpend])
  | accept b hst hpos hb hdup hcap =>
    exact close (runs_sum hst hpend b hpos)
      (by simp [classify_of_room hb hdup hcap, State.conclude, acknowledge_eq, State.commitBlock, successor, State.setPend,
            hpend])

/-- What a row leaves outside the registers: its outputs are not in the state it leads to. -/
theorem TableRow.keeps {s u : State} {e : Event} {os : List Output} (h : TableRow s e os u) :
    u.pend = s.pend ∧ u.out = s.out := by
  cases h <;> exact ⟨rfl, rfl⟩

/-- R35: what a row emits can be delivered. -/
theorem TableRow.deliverable {s u : State} {e : Event} {os : List Output} (h : TableRow s e os u) :
    ∀ o ∈ os, deliverable o = true := by
  cases h <;> simp [Machine.deliverable]

/-- A row of the table is a step, its outputs delivered in order. -/
theorem step_of_tableRow {s u : State} {e : Event} {rest : List Event} {os : List Output} (hpend : s.pend = [])
    (hin : s.input = e :: rest) (h : TableRow { s with input := rest } e os u) : step s = .next (u.performAll os) := by
  have hu : (u.setPend os).setPend [] = u := by
    have hp : u.pend = [] := h.keeps.1.trans hpend
    cases u
    simp_all [State.setPend]
  calc step s = drain (u.setPend os) := step_of_runs hpend hin (runs_of_tableRow hpend h)
    _ = .next (u.performAll os) := by simpa [hu] using drain_eq (s := u.setPend os) h.deliverable

/-! ## An enabled event has a row -/

/-- The positions at which a byte has a rule of its own (R61). -/
theorem pos_cases {pos : Byte} (h : pos.toNat ≤ 131) :
    pos = 0#8 ∨ pos = 1#8 ∨ pos = 2#8 ∨ (3 ≤ pos.toNat ∧ pos.toNat ≤ 130) ∨ pos = 131#8 := by
  bv_omega

section
variable {s : State} (hst : s.st = .await ∨ s.st = .xfer)
include hst

theorem tableRow_first (b : Byte) (hpos : s.pos = 0#8) : ∃ os u, TableRow s (.rx b) os u := by
  by_cases h1 : b = 0x01#8
  · exact h1 ▸ ⟨_, _, .soh s hst hpos⟩
  by_cases h4 : b = 0x04#8
  · exact h4 ▸ ⟨_, _, .eot s hst hpos⟩
  exact ⟨_, _, .illegal s b hst hpos h1 h4⟩

theorem tableRow_number (b : Byte) (hpos : s.pos = 1#8) : ∃ os u, TableRow s (.rx b) os u := by
  by_cases hb : b = s.exp
  · exact ⟨_, _, .newNumber s b hst hpos hb⟩
  rcases hst with hst | hst
  · exact ⟨_, _, .wrongNumberAwait s b hst hpos hb⟩
  by_cases hd : b = s.exp - 1#8
  · exact ⟨_, _, .duplicateNumber s b hst hpos hd⟩
  · exact ⟨_, _, .wrongNumberXfer s b hst hpos hb hd⟩

theorem tableRow_complement (b : Byte) (hpos : s.pos = 2#8) : ∃ os u, TableRow s (.rx b) os u := by
  by_cases hb : b = 255#8 - s.blk
  · exact ⟨_, _, .complement s b hst hpos hb⟩
  · exact ⟨_, _, .wrongComplement s b hst hpos hb⟩

theorem tableRow_payload (b : Byte) (hpos : 3 ≤ s.pos.toNat ∧ s.pos.toNat ≤ 130) : ∃ os u, TableRow s (.rx b) os u := by
  by_cases hdup : s.dup = true
  · exact ⟨_, _, .payloadNotWritten s b hst hpos (.inl hdup)⟩
  by_cases hcap : 128 ≤ s.cap
  · exact ⟨_, _, .payloadWritten s b hst hpos (by simpa using hdup) hcap⟩
  · exact ⟨_, _, .payloadNotWritten s b hst hpos (.inr (by omega))⟩

/-- The premise is R31 (vii): the table speaks of a duplicate in XFER only. -/
theorem tableRow_checksum (b : Byte) (hpos : s.pos = 131#8) (hx : s.dup = true → s.st = .xfer) :
    ∃ os u, TableRow s (.rx b) os u := by
  by_cases hb : b = s.sum
  · by_cases hdup : s.dup = true
    · exact ⟨_, _, .duplicate s b (hx hdup) hpos hb hdup⟩
    have hnew : s.dup = false := by simpa using hdup
    by_cases hcap : 128 ≤ s.cap
    · exact ⟨_, _, .accept s b hst hpos hb hnew hcap⟩
    · exact ⟨_, _, .overflow s b hst hpos hb hnew (by omega)⟩
  · exact ⟨_, _, .checksumError s b hst hpos hb⟩

end

/-- Between steps an enabled event has a row (R65, R102). -/
theorem tableRow_of_enabled {s : State} {e : Event} (hpos : s.pos.toNat ≤ 131)
    (hdup : 2 ≤ s.pos.toNat → s.dup = true → s.st = .xfer) (h : enabled s e = true) : ∃ os u, TableRow s e os u := by
  cases e with
  | rx b =>
    have hst : s.st = .await ∨ s.st = .xfer := sessionOpen_iff.mp h
    rcases pos_cases hpos with hp | hp | hp | hp | hp
    · exact tableRow_first hst b hp
    · exact tableRow_number hst b hp
    · exact tableRow_complement hst b hp
    · exact tableRow_payload hst b hp
    · exact tableRow_checksum hst b hp (hdup (by simp [hp]))
  | tmo => exact ⟨_, _, .timeout s (sessionOpen_iff.mp h)⟩
  | arm c =>
    by_cases hidle : s.st = .idle
    · exact ⟨_, _, .armAccepted s c hidle⟩
    · exact ⟨_, _, .armRejected s c (by cases hs : s.st <;> simp_all)⟩
  | cpl => exact ⟨_, _, .completion s (by simpa [enabled] using h)⟩
  | rst => exact ⟨_, _, .reset s⟩

/-- Settles O39 (R102): a row is a step, and a step took an enabled event, which has a row; that row is the step again, so it
led where the step did. -/
theorem stepIsTheTransitionTable : Obligations.StepIsTheTransitionTable := by
  intro s t e rest hinv hin
  constructor
  · intro hstep
    have hen : enabled s e = true := enabled_of_step hinv.delivered hin hstep
    obtain ⟨os, u, hrow⟩ := tableRow_of_enabled (s := { s with input := rest }) hinv.posRange hinv.dupInXfer hen
    have ht : step s = .next (u.performAll os) := step_of_tableRow hinv.delivered hin hrow
    exact ⟨os, u, hrow, by simpa [hstep] using ht⟩
  · rintro ⟨os, u, hrow, rfl⟩
    exact step_of_tableRow hinv.delivered hin hrow

end Sys2Proof.Machine
end

section
namespace Sys2Proof.Machine

/-! ## Responses (`42_sequencer.md` section 4) -/

/-- The byte an output puts into the transmit stream. -/
def responseOf : Output → Option Byte
  | .tx b => some b
  | .sinkWrite _ _ => none
  | .complete _ _ => none
  | .armRejected => none

theorem transmitted_eq (s : State) : s.transmitted = s.out.filterMap responseOf := by
  refine congrArg (s.out.filterMap ·) (funext fun o => ?_)
  cases o <;> rfl

theorem performAll_out (s : State) (os : List Output) : (s.performAll os).out = s.out ++ os := by
  induction os generalizing s with
  | nil => simp
  | cons o os ih => simp [ih, (perform_frame s o).1]

theorem performAll_pos (s : State) (os : List Output) : (s.performAll os).pos = s.pos := by
  induction os generalizing s with
  | nil => rfl
  | cons o os ih => rw [performAll_cons, ih, (perform_frame s o).2]

/-- The ends of a frame attempt that are acknowledged: EOT, a duplicate and an accepted block (R96, R83, R85). -/
def AckDue (s : State) (e : Event) : Prop :=
  (e = .rx 0x04#8 ∧ s.pos = 0#8) ∨ (e = .rx s.sum ∧ s.pos = 131#8 ∧ (s.dup = true ∨ 128 ≤ s.cap))

/-- A timeout, or a byte after which `pos` is 0: it has ended a frame attempt (R41, R97). -/
def AttemptEnds (e : Event) (pos : Byte) : Prop := e = .tmo ∨ (∃ b, e = .rx b) ∧ pos = 0#8

/-- A payload byte stands strictly inside the frame, and so does the byte after it. -/
theorem payload_ends_nothing {s : State} (b : Byte) (hpos : 3 ≤ s.pos.toNat ∧ s.pos.toNat ≤ 130) :
    ¬ AckDue s (.rx b) ∧ ¬ AttemptEnds (.rx b) (s.pos + 1#8) := by
  have h0 : s.pos ≠ 0#8 := by bv_omega
  have h131 : s.pos ≠ 131#8 := by bv_omega
  have hnext : s.pos + 1#8 ≠ 0#8 := by bv_omega
  exact ⟨by simp [AckDue, h0, h131], by simp [AttemptEnds, hnext]⟩

/-- R103 for a step on event `e` that leads to `pos` and emits `os`: one ACK where one is due, one NAK for every other end of
an attempt, and no response otherwise. -/
def Answered (s : State) (e : Event) (pos : Byte) (os : List Output) : Prop :=
  (AckDue s e ∧ os.filterMap responseOf = [0x06#8]) ∨
    (¬ AckDue s e ∧ AttemptEnds e pos ∧ os.filterMap responseOf = [0x15#8]) ∨
    (¬ AckDue s e ∧ ¬ AttemptEnds e pos ∧ os.filterMap responseOf = [])

section
variable {s : State} {e : Event}

theorem Answered.ack {pos : Byte} (h : AckDue s e) : Answered s e pos [.tx 0x06#8] := .inl ⟨h, rfl⟩

/-- A defect takes the parser to position 0 with one NAK (R121, R122). -/
theorem Answered.nak {b : Byte} (h : ¬ AckDue s (.rx b)) : Answered s (.rx b) 0#8 [.tx 0x15#8] :=
  .inr (.inl ⟨h, .inr ⟨⟨b, rfl⟩, rfl⟩, rfl⟩)

theorem Answered.silent {pos : Byte} {os : List Output} (h : ¬ AckDue s e) (hend : ¬ AttemptEnds e pos)
    (hos : os.filterMap responseOf = []) : Answered s e pos os := .inr (.inr ⟨h, hend, hos⟩)

end

theorem TableRow.answered {s u : State} {e : Event} {os : List Output} (h : TableRow s e os u) : Answered s e u.pos os := by
  cases h with
  | eot hst hpos => exact .ack (.inl ⟨rfl, hpos⟩)
  | duplicate b hst hpos hb hdup => exact .ack (.inr ⟨congrArg _ hb, hpos, .inl hdup⟩)
  | accept b hst hpos hb hdup hcap => exact .ack (.inr ⟨congrArg _ hb, hpos, .inr hcap⟩)
  | timeout => exact .inr (.inl ⟨by simp [AckDue], .inl rfl, rfl⟩)
  | illegal b hst hpos h1 h4 => exact .nak (by simp [AckDue, hpos, h4])
  | wrongNumberAwait b hst hpos => exact .nak (by simp [AckDue, hpos])
  | wrongNumberXfer b hst hpos => exact .nak (by simp [AckDue, hpos])
  | wrongComplement b hst hpos => exact .nak (by simp [AckDue, hpos])
  | checksumError b hst hpos hb => exact .nak (by simp [AckDue, hpos, hb])
  | overflow b hst hpos hb hdup hcap => exact .nak (by simp [AckDue, hpos, hdup, hcap])
  | reset => exact .silent (by simp [AckDue]) (by simp [AttemptEnds]) rfl
  | armAccepted => exact .silent (by simp [AckDue]) (by simp [AttemptEnds]) rfl
  | armRejected => exact .silent (by simp [AckDue]) (by simp [AttemptEnds]) rfl
  | completion => exact .silent (by simp [AckDue]) (by simp [AttemptEnds]) rfl
  | soh hst hpos => exact .silent (by simp [AckDue, hpos]) (by simp [AttemptEnds]) rfl
  | newNumber b hst hpos => exact .silent (by simp [AckDue, hpos]) (by simp [AttemptEnds]) rfl
  | duplicateNumber b hst hpos => exact .silent (by simp [AckDue, hpos]) (by simp [AttemptEnds]) rfl
  | complement b hst hpos => exact .silent (by simp [AckDue, hpos]) (by simp [AttemptEnds]) rfl
  | payloadWritten b hst hpos => exact .silent (payload_ends_nothing b hpos).1 (payload_ends_nothing b hpos).2 rfl
  | payloadNotWritten b hst hpos => exact .silent (payload_ends_nothing b hpos).1 (payload_ends_nothing b hpos).2 rfl

/-- Settles O42 (R103, R35): the step is a row of the table, and the row says which response, if any, it sends. -/
theorem oneResponsePerEndedAttempt : Obligations.OneResponsePerEndedAttempt := by
  intro s t e rest hinv hin hstep
  obtain ⟨os, u, hrow, rfl⟩ := (stepIsTheTransitionTable s t e rest hinv hin).mp hstep
  have hsent : (u.performAll os).transmitted = s.transmitted ++ os.filterMap responseOf := by
    rw [transmitted_eq, transmitted_eq, performAll_out, hrow.keeps.2, List.filterMap_append]
  rw [hsent, performAll_pos]
  congr 1
  rcases hrow.answered with ⟨hack, hr⟩ | ⟨hack, hend, hr⟩ | ⟨hack, hend, hr⟩
  · exact hr.trans (if_pos hack).symm
  · exact hr.trans ((if_neg hack).trans (if_pos hend)).symm
  · exact hr.trans ((if_neg hack).trans (if_neg hend)).symm

/-! ## Keepalives -/

/-- R98: one keepalive is the timeout row at `pos` = 0, so the NAK is all it leaves. -/
theorem step_keepalive {s : State} (rest : List Event) (hst : s.st = .await) (hpos : s.pos = 0#8) (hpend : s.pend = []) :
    step { s with input := .tmo :: rest } = .next { s with input := rest, out := s.out ++ [.tx 0x15#8] } := by
  have hstep := step_of_tableRow (s := { s with input := .tmo :: rest }) hpend rfl (.timeout _ (.inl hst))
  simpa [State.perform, State.record, hpos] using hstep

/-- Settles O51 (R98), by induction on the number of timeouts: each keepalive leads back to a state of the same kind. -/
theorem keepalivesRepeatWithoutLimit : Obligations.KeepalivesRepeatWithoutLimit := by
  intro s n rest hst hpos hpend
  induction n generalizing s with
  | zero => simp [runSteps]
  | succ n ih =>
    have hstep := step_keepalive (List.replicate n .tmo ++ rest) hst hpos hpend
    have hrest := ih { s with out := s.out ++ [.tx 0x15#8] } hst hpos hpend
    simpa [runSteps, List.replicate_succ, hstep] using hrest

end Sys2Proof.Machine
end

section
namespace Sys2Proof.Machine

/-! ## Defects and refusals (`60_exceptions.md`) -/

/-- Settles O18 (R121, R122): `raise` asks only whether the defect is Overflow, and Overflow alone leaves the open session,
in which a read could be pending. -/
theorem raiseMeansNakAndPositionZero : Obligations.RaiseMeansNakAndPositionZero := by
  constructor
  · intro s d hlocal
    have hd : d ≠ .overflow := by rcases hlocal with rfl | rfl | rfl <;> decide
    exact (raise_eq d s).trans (if_neg hd)
  · intro s
    have hraise := (raise_eq .overflow s).trans (if_pos rfl)
    refine ⟨hraise, Bool.eq_false_iff.mpr fun hread => ?_⟩
    have hst : (s.raise .overflow).st = .done := congrArg State.st hraise
    simpa [hst] using (readPending_iff.mp hread).1

/-- Between steps every event the environment offers has a reading where the parser stands (R62). -/
theorem decodeEvent_total {pos : Byte} (h : pos.toNat ≤ 131) (e : Event) : ∃ i, decodeEvent pos e = .ok i := by
  cases e with
  | rx b => exact decodeRx_total h b
  | tmo => exact ⟨.tmo, rfl⟩
  | arm c => exact ⟨.arm c, rfl⟩
  | cpl => exact ⟨.cpl, rfl⟩
  | rst => exact ⟨.rst, rfl⟩

/-- R100: outside an open session no read is pending, so an instruction that takes one is refused. -/
theorem receiving_of_closed {i : Instr} {s t : State} (h : sessionOpen s = false) :
    receiving i s t = .refused .notEnabled := by
  simp [receiving, readPending, h]

/-- R100, R101: the instruction of an event that is not enabled is refused as such. -/
theorem exec_of_not_enabled {s : State} {pos : Byte} {e : Event} {i : Instr} (hd : decodeEvent pos e = .ok i)
    (h : enabled s e = false) : exec i s = .refused .notEnabled := by
  cases e with
  | rx b =>
    obtain ⟨t, hx⟩ := exec_of_decodeRx s hd
    exact hx.trans (receiving_of_closed h)
  | tmo =>
    cases hd
    exact receiving_of_closed h
  | arm c => cases h
  | cpl =>
    cases hd
    have hst : s.st ≠ .done := by simpa [enabled] using h
    exact if_neg hst
  | rst => cases h

/-- A step with nothing left to deliver is refused as its instruction is. -/
theorem step_of_refused {s : State} {e : Event} {rest : List Event} {i : Instr} {r : Refusal} (hpend : s.pend = [])
    (hin : s.input = e :: rest) (hd : decodeEvent s.pos e = .ok i) (h : exec i (s.setInput rest) = .refused r) :
    step s = .refused r := by
  have hf : fetch s = .next (i, rest) := fetch_eq_next.mpr ⟨e, hin, hd⟩
  simp [step, cycle, hpend, hf, h]

/-- With no event offered the engine waits (R140). -/
theorem step_of_no_event {s : State} (hpend : s.pend = []) (hin : s.input = []) : step s = .refused .noEvent := by
  simp [step, cycle, fetch, hpend, hin]

section
variable {s : State} {e : Event} {rest : List Event} (hinv : Inv s) (hin : s.input = e :: rest)
include hinv hin

theorem step_of_enabled (h : enabled s e = true) : ∃ t, step s = .next t := by
  obtain ⟨os, u, hrow⟩ := tableRow_of_enabled (s := { s with input := rest }) hinv.posRange hinv.dupInXfer h
  exact ⟨_, step_of_tableRow hinv.delivered hin hrow⟩

theorem step_of_not_enabled (h : enabled s e = false) : step s = .refused .notEnabled := by
  obtain ⟨i, hd⟩ := decodeEvent_total hinv.posRange e
  exact step_of_refused hinv.delivered hin hd (exec_of_not_enabled (s := s.setInput rest) hd h)

end

/-- R124: a step that does not lead on is refused, never faulted. -/
theorem step_ne_fault {s : State} (hinv : Inv s) (f : Fault) : step s ≠ .fault f := by
  cases hin : s.input with
  | nil => simp [step_of_no_event hinv.delivered hin]
  | cons e rest =>
    cases hen : enabled s e with
    | true =>
      obtain ⟨t, ht⟩ := step_of_enabled hinv hin hen
      simp [ht]
    | false => simp [step_of_not_enabled hinv hin hen]

/-- Settles O41 (R124, R65): an enabled event has a row of the table, one that is not enabled is decoded and refused, and
RST is enabled in every state. -/
theorem enabledEventsAlwaysRun : Obligations.EnabledEventsAlwaysRun := by
  intro s hinv
  refine ⟨?enabled, ?notEnabled, step_ne_fault hinv, .rst, rfl⟩
  case enabled => exact fun _ _ hin => step_of_enabled hinv hin
  case notEnabled => exact fun _ _ hin => step_of_not_enabled hinv hin

end Sys2Proof.Machine
end

section
namespace Sys2Proof.Machine

/-! ## RST (`70_reset_and_hazards.md` section 1) -/

/-- Settles O50 (R143): RST has one row in the table, the same in every state. The row has no output, so nothing is added to
`out` or stored in `dest`, and its registers are those of `State.reset`, IDLE included: a completion pending in DONE is
lost. -/
theorem resetEmitsAndUndoesNothing : Obligations.ResetEmitsAndUndoesNothing := by
  intro s rest hpend hin
  have hstep := step_of_tableRow hpend hin (.reset _)
  simpa [State.reset, hpend] using hstep

end Sys2Proof.Machine
end

section
namespace Sys2Proof.Machine

/-! ## The decoder and the encoder (`30_encoding.md`) -/

theorem illegal_wellFormed_iff {b : Byte} : (Instr.illegal b).wellFormed = true ↔ b ≠ 0x01#8 ∧ b ≠ 0x04#8 := by
  simp [Instr.wellFormed]

theorem data_wellFormed_iff {n c k : Byte} {p : List Byte} : (Instr.data n c p k).wellFormed = true ↔ p.length = 128 := by
  simp [Instr.wellFormed]

theorem decodeFirst_illegal {b : Byte} (h : (Instr.illegal b).wellFormed = true) : decodeFirst b = .illegal b := by
  obtain ⟨h1, h4⟩ := illegal_wellFormed_iff.mp h
  simp [decodeFirst, h1, h4]

/-- R60: the reading of a first byte is well-formed and has that byte as its encoding. -/
theorem decodeFirst_wellFormed_encode (b : Byte) :
    (decodeFirst b).wellFormed = true ∧ encode (decodeFirst b) = .event (.rx b) := by
  unfold decodeFirst
  split_ifs with h1 h4
  · exact ⟨rfl, h1 ▸ rfl⟩
  · exact ⟨rfl, h4 ▸ rfl⟩
  · exact ⟨illegal_wellFormed_iff.mpr ⟨h1, h4⟩, rfl⟩

/-- R61, R62: the reading of a byte is well-formed and has that byte as its encoding. -/
theorem decodeRx_wellFormed_encode {pos b : Byte} {i : Instr} (h : decodeRx pos b = .ok i) :
    i.wellFormed = true ∧ encode i = .event (.rx b) := by
  unfold decodeRx at h
  split_ifs at h <;> injection h with h <;> subst h
  · exact decodeFirst_wellFormed_encode b
  all_goals exact ⟨rfl, rfl⟩

theorem decodeRx_payload {pos : Byte} (b : Byte) (h3 : 3 ≤ pos.toNat) (h130 : pos.toNat ≤ 130) :
    decodeRx pos b = .ok (.dataPay b) := by
  rw [decodeRx, if_neg (by omega), if_neg (by omega), if_neg (by omega), if_pos h130]

/-- R52: the frames the decoder reads are the start marker, the header, 128 payload bytes and the checksum. -/
theorem decodeFrame_eq_ok {bytes : List Byte} {i : Instr} :
    decodeFrame bytes = .ok i ↔
      ∃ n c p k, p.length = 128 ∧ bytes = Config.SOH :: n :: c :: (p ++ [k]) ∧ i = .data n c p k := by
  constructor
  · intro h
    unfold decodeFrame at h
    split at h
    · rename_i soh n c rest
      split at h
      · rename_i k hk
        split_ifs at h with hsoh
        injection h with h
        have hlen : (rest.drop 128).length = 1 := congrArg List.length hk
        refine ⟨n, c, rest.take 128, k, ?_, ?_, h.symm⟩
        · rw [List.length_drop] at hlen
          rw [List.length_take]
          omega
        · rw [hsoh, ← hk, List.take_append_drop]
      · cases h
    · cases h
  · rintro ⟨n, c, p, k, hp, rfl, rfl⟩
    have htake : (p ++ [k]).take 128 = p := List.take_left' hp
    have hdrop : (p ++ [k]).drop 128 = [k] := List.drop_left' hp
    simp [decodeFrame, htake, hdrop]

/-- Settles O28: an event off the wire and a response are read without a position, a received byte at the positions its
instruction stands at, and a frame is cut where R52 cuts it. -/
theorem decodeOfEncodeIsTheInstruction : Obligations.DecodeOfEncodeIsTheInstruction := by
  intro i pos hwf hat
  cases i with
  | data n c p k =>
    have hpos : pos.toNat = 0 := by simpa [Instr.standsAt] using hat
    exact (if_pos hpos).trans (decodeFrame_eq_ok.mpr ⟨n, c, p, k, data_wellFormed_iff.mp hwf, rfl, rfl⟩)
  | dataSoh =>
    have hpos : pos.toNat = 0 := by simpa [Instr.standsAt] using hat
    exact if_pos hpos
  | eot =>
    have hpos : pos.toNat = 0 := by simpa [Instr.standsAt] using hat
    exact if_pos hpos
  | illegal b =>
    have hpos : pos.toNat = 0 := by simpa [Instr.standsAt] using hat
    exact (if_pos hpos).trans (congrArg _ (decodeFirst_illegal hwf))
  | dataBlk n =>
    have hpos : pos.toNat = 1 := by simpa [Instr.standsAt] using hat
    simp [decode, encode, decodeEvent, decodeRx, hpos]
  | dataCmp c =>
    have hpos : pos.toNat = 2 := by simpa [Instr.standsAt] using hat
    simp [decode, encode, decodeEvent, decodeRx, hpos]
  | dataPay v =>
    obtain ⟨h3, h130⟩ : 3 ≤ pos.toNat ∧ pos.toNat ≤ 130 := by simpa [Instr.standsAt] using hat
    exact decodeRx_payload v h3 h130
  | dataSum k =>
    have hpos : pos.toNat = 131 := by simpa [Instr.standsAt] using hat
    simp [decode, encode, decodeEvent, decodeRx, hpos]
  | ack => rfl
  | nak => rfl
  | tmo => rfl
  | arm c => rfl
  | cpl => rfl
  | rst => rfl

/-- Settles O29: each signal has at most one reading, and it is the instruction whose encoding the signal is. Only `ARM`'s
operand needs the premise. -/
theorem decodedSignalIsTheEncoding : Obligations.DecodedSignalIsTheEncoding := by
  intro i pos g hwf hd
  cases g with
  | event e =>
    cases e with
    | rx b =>
      obtain ⟨hw, he⟩ := decodeRx_wellFormed_encode hd
      exact ⟨hw, decodeRx_standsAt hd, he⟩
    | arm c =>
      cases hd
      exact ⟨hwf, rfl, rfl⟩
    | _ =>
      cases hd
      exact ⟨rfl, rfl, rfl⟩
  | response b =>
    simp only [decode, decodeResponse] at hd
    split_ifs at hd with ha hn <;> cases hd
    · exact ⟨rfl, rfl, ha ▸ rfl⟩
    · exact ⟨rfl, rfl, hn ▸ rfl⟩
  | frame bytes =>
    simp only [decode] at hd
    split_ifs at hd with hpos
    obtain ⟨n, c, p, k, hp, rfl, rfl⟩ := decodeFrame_eq_ok.mp hd
    exact ⟨data_wellFormed_iff.mpr hp, by simpa [Instr.standsAt] using hpos, rfl⟩

/-- Settles O30: every word is evaluated; the frame's has the form R52 gives. -/
theorem writtenOutWordsDecode : Obligations.WrittenOutWordsDecode := by
  refine ⟨rfl, rfl, rfl, rfl, rfl, rfl, rfl, rfl, rfl, rfl, rfl, ?frame⟩
  exact decodeFrame_eq_ok.mpr ⟨_, _, _, _, List.length_replicate, rfl, rfl⟩

/-- Settles O33 (D4, D15). -/
theorem stateAndFlagEncodings : Obligations.StateAndFlagEncodings := ⟨rfl, rfl, rfl, rfl, rfl, rfl⟩

/-- Settles O56 (D29): the expansions are the encoding of the good frame, cut; `HDR` and `PART` by their definitions. -/
theorem stimulusFrameIs132Bytes : Obligations.StimulusFrameIs132Bytes := by
  intro n p m hp
  refine ⟨rfl, ?length, rfl, ?part⟩
  case length => simp [Stimulus.events, received, goodFrame, encode, Signal.bytes, hp]
  case part => exact List.map_take

end Sys2Proof.Machine
end

section
namespace Sys2Proof.Machine

/-! ## Delivery in list order (`20_memory.md` R47) -/

/-- Delivery stores the sink writes and lengthens the trace; it touches no register and no event. -/
theorem performAll_eq (s : State) (os : List Output) :
    s.performAll os = { s with dest := s.dest.putAll os, out := s.out ++ os } := by
  induction os generalizing s with
  | nil => simp [Memory.putAll]
  | cons o os ih =>
    rw [performAll_cons, ih]
    cases o <;> simp [State.perform, State.store, State.record, Memory.putAll]

theorem Memory.wf_putAll {m : Memory} (h : m.wf) (os : List Output) : (m.putAll os).wf := by
  induction os generalizing m with
  | nil => exact h
  | cons o os ih =>
    cases o with
    | sinkWrite off v => exact ih (Memory.wf_write h off v)
    | tx b => exact ih h
    | complete len flag => exact ih h
    | armRejected => exact ih h

theorem transmitted_performAll (s : State) (os : List Output) :
    (s.performAll os).transmitted = s.transmitted ++ os.filterMap responseOf := by
  rw [transmitted_eq, transmitted_eq, performAll_out, List.filterMap_append]

/-- R35: the response of a deliverable output is ACK or NAK. -/
theorem response_of_deliverable {o : Output} {b : Byte} (h : deliverable o = true) (hb : responseOf o = some b) :
    b = Config.ACK ∨ b = Config.NAK := by
  cases o with
  | tx b' =>
    obtain rfl : b' = b := Option.some.inj hb
    simpa [deliverable] using h
  | sinkWrite off v => cases hb
  | complete len flag => cases hb
  | armRejected => cases hb

/-- A step with outputs still to be delivered delivers them and takes no event (R34). -/
theorem step_of_pending {s : State} (h : s.pend ≠ []) : step s = drain s := by
  obtain ⟨o, os, hpend⟩ := List.exists_cons_of_ne_nil h
  simp [step, cycle, hpend]

/-- Settles O35: the step is the delivery, in list order. -/
theorem pendingOutputsAreDeliveredFirst : Obligations.PendingOutputsAreDeliveredFirst := by
  intro s hpend hdel
  rw [step_of_pending hpend, drain_eq hdel, performAll_eq]
  rfl

/-! ## The invariants (`10_state.md` section 4) -/

/-- Settles O37. -/
theorem invariantsHoldAtReset : Obligations.InvariantsHoldAtReset where
  delivered := rfl
  posRange := by decide
  posClosed _ := rfl
  curBlocks := rfl
  expCounts := rfl
  awaitFresh _ := rfl
  xferBegun := nofun
  dupInXfer := nofun
  blkKnown h := absurd h (by decide)
  errClosed := nofun
  roomBounded := lt_two_pow_W (by decide)
  offered := nofun
  destWf := Memory.wf_reset
  sentResponses := nofun

theorem not_two_le_zero : ¬ 2 ≤ (0#8 : Byte).toNat := by decide

/-- Going to `pos` = 0 or 1 keeps the invariants: what they say of a frame's number begins at `pos` = 2. -/
theorem Inv.beforeNumber {s : State} (h : Inv s) {p : Byte} (hp : p.toNat < 2) (hclosed : sessionOpen s = false → p = 0#8) :
    Inv { s with pos := p } :=
  { h with
    posRange := Nat.le_trans (Nat.le_of_lt hp) (by decide)
    posClosed := hclosed
    dupInXfer := fun h2 => absurd h2 (Nat.not_le_of_lt hp)
    blkKnown := fun h2 => absurd h2 (Nat.not_le_of_lt hp) }

/-- R121: a defect's `pos` = 0 keeps the invariants. -/
theorem Inv.abandonFrame {s : State} (h : Inv s) : Inv { s with pos := 0#8 } :=
  h.beforeNumber (by decide) fun _ => rfl

/-- An accepted number keeps the invariants (R74, R17). -/
theorem Inv.takeNumber {s : State} (h : Inv s) (hst : s.st = .await ∨ s.st = .xfer) {b : Byte} {d : Bool}
    (hd : d = true → s.st = .xfer) (hb : b = if d then predecessor s.exp else s.exp) :
    Inv { s with pos := 2#8, blk := b, dup := d } :=
  { h with
    posRange := (by decide : (2#8 : Byte).toNat ≤ 131)
    posClosed := fun hclosed => absurd (sessionOpen_iff.mpr hst) (ne_true_of_eq_false hclosed)
    dupInXfer := fun _ => hd
    blkKnown := fun _ => hb }

/-- Moving on inside a frame keeps the invariants, whatever the sum becomes: it bears on `pos` ≤ 131 alone. -/
theorem Inv.continueFrame {s : State} (h : Inv s) (hst : s.st = .await ∨ s.st = .xfer) (hpos : 2 ≤ s.pos.toNat) {p : Byte}
    (hp : p.toNat ≤ 131) (x : Byte) : Inv { s with pos := p, sum := x } :=
  { h with
    posRange := hp
    posClosed := fun hclosed => absurd (sessionOpen_iff.mpr hst) (ne_true_of_eq_false hclosed)
    dupInXfer := fun _ => h.dupInXfer hpos
    blkKnown := fun _ => h.blkKnown hpos }

/-- R31 (iii), (iv), (v) after an accepted block: one block more is committed, and the next number is expected. -/
theorem Inv.acceptBlock {s : State} (h : Inv s) (hcap : 128 ≤ s.cap) :
    Inv { s with st := .xfer, pos := 0#8, cur := s.cur + 128, cap := s.cap - 128, exp := s.exp + 1#8 } :=
  { h.abandonFrame with
    posClosed := fun _ => rfl
    curBlocks := (Nat.add_mod_right s.cur 128).trans h.curBlocks
    expCounts := by
      have hblocks : 1 + (s.cur + 128) / 128 = 1 + s.cur / 128 + 1 := by omega
      simp only [hblocks, h.expCounts, BitVec.ofNat_add]
    awaitFresh := nofun
    xferBegun := fun _ => Nat.le_add_left 128 s.cur
    dupInXfer := fun hp => absurd hp not_two_le_zero
    blkKnown := fun hp => absurd hp not_two_le_zero
    errClosed := fun he => absurd hcap (Nat.not_le_of_lt (h.errClosed he).2)
    roomBounded := by
      have := h.roomBounded
      show s.cur + 128 + (s.cap - 128) < _
      omega }

/-- Outside an open session `pos` is 0, so no invariant of a frame is at stake when `st` moves between closed states or the
session ends at `pos` = 0. -/
theorem Inv.closeSession {s : State} (h : Inv s) (hpos : s.pos = 0#8) {st : Proto} (hst : st = .idle ∨ st = .done) (f : ErrFlag)
    (hf : f = .overflow → s.cap < 128) : Inv { s with st := st, err := f } :=
  { h with
    posClosed := fun _ => hpos
    awaitFresh := fun (e : st = .await) => by rcases hst with rfl | rfl <;> cases e
    xferBegun := fun (e : st = .xfer) => by rcases hst with rfl | rfl <;> cases e
    dupInXfer := fun hp => by simp [hpos] at hp
    blkKnown := fun hp => by simp [hpos] at hp
    errClosed := fun he => ⟨hst.symm, hf he⟩ }

/-- R31: each row of the table keeps the invariants. -/
theorem TableRow.keepsInv {s u : State} {e : Event} {os : List Output} (hinv : Inv s) (he : e.wellFormed = true)
    (h : TableRow s e os u) : Inv u := by
  cases h with
  | reset =>
    exact { invariantsHoldAtReset with
      delivered := hinv.delivered, offered := hinv.offered, destWf := hinv.destWf, sentResponses := hinv.sentResponses }
  | armAccepted c hidle =>
    exact { hinv.abandonFrame with
      posClosed := fun _ => rfl
      curBlocks := rfl
      expCounts := by simp
      awaitFresh := fun _ => rfl
      xferBegun := nofun
      dupInXfer := fun hp => absurd hp not_two_le_zero
      blkKnown := fun hp => absurd hp not_two_le_zero
      errClosed := nofun
      roomBounded := by simpa using inWidth_iff.mp he }
  | armRejected => exact hinv
  | completion hdone =>
    have hpos : s.pos = 0#8 := hinv.posClosed (by simp [sessionOpen, hdone])
    exact hinv.closeSession hpos (.inl rfl) s.err fun hf => (hinv.errClosed hf).2
  | eot hst hpos => exact hinv.closeSession hpos (.inr rfl) .none nofun
  | overflow b hst hpos hb hdup hcap => exact hinv.abandonFrame.closeSession rfl (.inr rfl) .overflow fun _ => hcap
  | soh hst => exact hinv.beforeNumber (by decide) fun hclosed => by simp [sessionOpen_iff.mpr hst] at hclosed
  | newNumber b hst hpos hb => exact hinv.takeNumber hst nofun hb
  | duplicateNumber b hst hpos hb => exact hinv.takeNumber (.inr hst) (fun _ => hst) hb
  | complement b hst hpos hb => exact hinv.continueFrame hst (by simp [hpos]) (by decide) 0#8
  | payloadWritten b hst hpos => exact hinv.continueFrame hst (by omega) (by bv_omega) _
  | payloadNotWritten b hst hpos => exact hinv.continueFrame hst (by omega) (by bv_omega) _
  | accept b hst hpos hb hdup hcap => exact hinv.acceptBlock hcap
  | timeout => exact hinv.abandonFrame
  | illegal => exact hinv.abandonFrame
  | wrongNumberAwait => exact hinv.abandonFrame
  | wrongNumberXfer => exact hinv.abandonFrame
  | wrongComplement => exact hinv.abandonFrame
  | checksumError => exact hinv.abandonFrame
  | duplicate => exact hinv.abandonFrame

/-- Delivery keeps the invariants: they speak of the sink's canonical form and of the bytes sent alone. -/
theorem Inv.performAll {s : State} (h : Inv s) {os : List Output} (hos : ∀ o ∈ os, Machine.deliverable o = true) :
    Inv (s.performAll os) := by
  have hsent : ∀ b ∈ (s.performAll os).transmitted, b = Config.ACK ∨ b = Config.NAK := by
    intro b hb
    rw [transmitted_performAll, List.mem_append, List.mem_filterMap] at hb
    rcases hb with hb | ⟨o, ho, hb⟩
    · exact h.sentResponses b hb
    · exact response_of_deliverable (hos o ho) hb
  rw [performAll_eq] at hsent ⊢
  exact { h with destWf := Memory.wf_putAll h.destWf os, sentResponses := hsent }

/-- Between steps a step is a row of the table for the oldest event, its outputs delivered. -/
theorem tableRow_of_step {s t : State} (hinv : Inv s) (h : step s = .next t) :
    ∃ e rest os u, s.input = e :: rest ∧ TableRow { s with input := rest } e os u ∧ t = u.performAll os := by
  obtain ⟨e, rest, i, v, hin, -⟩ := step_cases hinv.delivered h
  obtain ⟨os, u, hrow, ht⟩ := (stepIsTheTransitionTable s t e rest hinv hin).mp h
  exact ⟨e, rest, os, u, hin, hrow, ht⟩

/-- Settles O38: the step is a row of the table, which keeps the invariants, and so does the delivery of its outputs. -/
theorem everyStepKeepsTheInvariants : Obligations.EveryStepKeepsTheInvariants := by
  intro s t hinv hstep
  obtain ⟨e, rest, os, u, hin, hrow, rfl⟩ := tableRow_of_step hinv hstep
  have hoffered : ∀ e' ∈ e :: rest, e'.wellFormed = true := hin ▸ hinv.offered
  have hinv' : Inv { s with input := rest } :=
    { hinv with offered := fun e' h => hoffered e' (List.mem_cons_of_mem e h) }
  exact (hrow.keepsInv hinv' (hoffered e List.mem_cons_self)).performAll hrow.deliverable

end Sys2Proof.Machine
end

section
namespace Sys2Proof.Machine

/-! ## What a row does to the sink (`43_sink.md` section 2) -/

/-- A byte that is written to the staging area (R76). -/
def Stages (s : State) (e : Event) : Prop := (∃ b, e = .rx b) ∧ 3 ≤ s.pos.toNat ∧ s.pos.toNat ≤ 130 ∧ staged s = true

theorem not_staged_iff {s : State} : ¬ staged s = true ↔ s.dup = true ∨ s.cap < 128 := by
  rw [staged_iff, not_and_or, Bool.not_eq_false, Nat.not_le]

/-- The sink writes of a row: one, of the byte received, where a byte is staged, and none elsewhere. -/
theorem TableRow.writes {s u : State} {e : Event} {os : List Output} (h : TableRow s e os u) :
    (∃ b, e = .rx b ∧ Stages s e ∧ os = [.sinkWrite (stagingOffset s.cur s.pos) b]) ∨
      (¬ Stages s e ∧ ∀ m : Memory, m.putAll os = m) := by
  have off_payload {b : Byte} {p : Byte} (hpos : s.pos = p) (hp : ¬ (3 ≤ p.toNat ∧ p.toNat ≤ 130)) : ¬ Stages s (.rx b) :=
    fun ⟨_, h3, h130, _⟩ => hp (hpos ▸ ⟨h3, h130⟩)
  cases h with
  | payloadWritten b hst hpos hdup hcap =>
    exact .inl ⟨b, rfl, ⟨⟨b, rfl⟩, hpos.1, hpos.2, staged_iff.mpr ⟨hdup, hcap⟩⟩, by rw [stagingOffset_eq hpos.1]⟩
  | payloadNotWritten b hst hpos hno =>
    exact .inr ⟨fun ⟨_, _, _, hstaged⟩ => not_staged_iff.mpr hno hstaged, fun _ => rfl⟩
  | reset | armAccepted | armRejected | completion | timeout => exact .inr ⟨by simp [Stages], fun _ => rfl⟩
  | eot _ hpos | soh _ hpos | illegal _ _ hpos | newNumber _ _ hpos | duplicateNumber _ _ hpos | wrongNumberAwait _ _ hpos
  | wrongNumberXfer _ _ hpos | complement _ _ hpos | wrongComplement _ _ hpos | checksumError _ _ hpos
  | duplicate _ _ hpos | overflow _ _ hpos | accept _ _ hpos => exact .inr ⟨off_payload hpos (by decide), fun _ => rfl⟩

/-- A row stores nothing itself: the sink changes when the row's outputs are delivered. -/
theorem TableRow.keepsDest {s u : State} {e : Event} {os : List Output} (h : TableRow s e os u) : u.dest = s.dest := by
  cases h <;> rfl

theorem dest_performAll (s : State) (os : List Output) : (s.performAll os).dest = s.dest.putAll os := by
  rw [performAll_eq]

/-- Settles O43: the row of the step has one sink write exactly where a byte is staged, and the room for the block bounds its
offset. -/
theorem stepStoresOneByteInStagingOrNone : Obligations.StepStoresOneByteInStagingOrNone := by
  intro s t e rest hinv hin hstep
  obtain ⟨os, u, hrow, rfl⟩ := (stepIsTheTransitionTable s t e rest hinv hin).mp hstep
  have hdest : (u.performAll os).dest = s.dest.putAll os := by rw [dest_performAll, hrow.keepsDest]
  have hout : (u.performAll os).out = s.out ++ os := by rw [performAll_out, hrow.keeps.2]
  rw [hdest, hout]
  rcases hrow.writes with ⟨b, rfl, hstages, hos⟩ | ⟨hno, hnone⟩
  · refine ⟨?_, fun hno => absurd hstages hno⟩
    intro b' hb h3 h130 hstaged
    obtain rfl : b = b' := by simpa using hb
    have hoff := stagingOffset_eq (cur := s.cur) h3
    have hcap : 128 ≤ s.cap := (staged_iff.mp hstaged).2
    rw [hos]
    exact ⟨by omega, by omega, by omega, rfl, Memory.read_write_self _ _ _, fun a ha => Memory.read_write_of_ne b ha⟩
  · exact ⟨fun b hb h3 h130 hstaged => absurd ⟨⟨b, hb⟩, h3, h130, hstaged⟩ hno, fun _ a => by rw [hnone]⟩

/-- Settles O44: a staged byte goes to an offset from `cur` on, and nothing else is written. -/
theorem committedBytesNeverChange : Obligations.CommittedBytesNeverChange := by
  intro s t hinv hstep a ha
  obtain ⟨e, rest, _, _, hin, -⟩ := tableRow_of_step hinv hstep
  obtain ⟨hwrite, hnone⟩ := stepStoresOneByteInStagingOrNone s t e rest hinv hin hstep
  by_cases hstages : Stages s e
  · obtain ⟨⟨b, hb⟩, h3, h130, hstaged⟩ := hstages
    obtain ⟨hlow, -, -, -, -, hframe⟩ := hwrite b hb h3 h130 hstaged
    exact hframe a (by omega)
  · exact hnone hstages a

/-! ## The bytes staged (`43_sink.md` section 2) -/

theorem checksumOf_append_singleton (p : List Byte) (b : Byte) : checksumOf (p ++ [b]) = checksumOf p + b := by
  simp [checksumOf, addToSum]

/-- Outside a payload nothing is claimed of the bytes staged. -/
theorem Staging.of_pos {bytes : List Byte} {s : State} {p : Byte} (hpos : s.pos = p) (hp : p.toNat < 3) : Staging bytes s := by
  subst hpos
  exact ⟨fun h3 => by omega, fun h3 => by omega, fun h3 => by omega⟩

/-- A complement opens the payload with nothing read (R75). -/
theorem Staging.payloadOpened (s : State) : Staging [] { s with pos := 3#8, sum := 0#8 } :=
  ⟨fun _ => rfl, fun _ => rfl, fun _ _ k h => absurd h (Nat.not_lt_zero k)⟩

section
variable {bytes : List Byte} {s : State} (h : Staging bytes s) (h3 : 3 ≤ s.pos.toNat)
include h h3

theorem Staging.summed_next (b : Byte) : s.sum + b = checksumOf (bytes ++ [b]) := by
  rw [checksumOf_append_singleton, h.summed h3]

variable (h130 : s.pos.toNat ≤ 130) (b : Byte)
include h130

theorem Staging.counted_next : (bytes ++ [b]).length + 3 = (s.pos + 1#8).toNat := by
  have := h.counted h3
  rw [List.length_append, List.length_singleton]
  bv_omega

/-- A byte of a block that is not staged is counted and summed (R76). -/
theorem Staging.next_of_not_staged (hno : ¬ staged s = true) :
    Staging (bytes ++ [b]) { s with pos := s.pos + 1#8, sum := s.sum + b } :=
  ⟨fun _ => h.counted_next h3 h130 b, fun _ => h.summed_next h3 b, fun _ hstaged => absurd hstaged hno⟩

/-- A staged byte lands behind those staged before it, at the offset `pos` has counted (R76, R110). -/
theorem Staging.next_of_staged (hstaged : staged s = true) :
    Staging (bytes ++ [b])
      { s with pos := s.pos + 1#8, sum := s.sum + b, dest := s.dest.write (s.cur + (s.pos.toNat - 3)) b } := by
  refine ⟨fun _ => h.counted_next h3 h130 b, fun _ => h.summed_next h3 b, fun _ _ k hk => ?_⟩
  have hoff : s.cur + (s.pos.toNat - 3) = s.cur + bytes.length := by have := h.counted h3; omega
  have hlen : k < bytes.length + 1 := by simpa using hk
  rw [hoff]
  rcases Nat.lt_succ_iff_lt_or_eq.mp hlen with hlt | rfl
  · simp [Memory.read_write_of_ne b (Nat.ne_of_lt (Nat.add_lt_add_left hlt s.cur)), h.stored h3 hstaged k hlt, hlt]
  · simp

end

theorem stagedAfter_complement {bytes : List Byte} {s : State} {b : Byte} {rest : List Event} (hin : s.input = .rx b :: rest)
    (hpos : s.pos = 2#8) : stagedAfter bytes s = [] := by
  simp [stagedAfter, hin, hpos]

theorem stagedAfter_payload {bytes : List Byte} {s : State} {b : Byte} {rest : List Event} (hin : s.input = .rx b :: rest)
    (hpos : 3 ≤ s.pos.toNat ∧ s.pos.toNat ≤ 130) : stagedAfter bytes s = bytes ++ [b] := by
  have h2 : ¬ s.pos.toNat = 2 := by omega
  simp only [stagedAfter, hin, if_neg h2, if_pos hpos]

theorem stagedAfter_arm {bytes : List Byte} {s : State} {c : Nat} {rest : List Event} (hin : s.input = .arm c :: rest) :
    stagedAfter bytes s = bytes := by
  simp [stagedAfter, hin]

/-- Every row keeps what is claimed of the bytes staged: the complement opens a payload, a payload byte lengthens it, a
rejected `ARM` leaves all as it is, and every other row leads to `pos` = 0, 1 or 2. -/
theorem TableRow.keepsStaging {s u : State} {e : Event} {rest : List Event} {os : List Output} {bytes : List Byte}
    (hinv : Inv s) (hs : Staging bytes s) (hin : s.input = e :: rest) (h : TableRow { s with input := rest } e os u) :
    Staging (stagedAfter bytes s) (u.performAll os) := by
  cases h with
  | complement b hst hpos =>
    rw [stagedAfter_complement hin hpos]
    exact Staging.payloadOpened _
  | payloadWritten b hst hpos hdup hcap =>
    rw [stagedAfter_payload hin hpos]
    have hnext := hs.next_of_staged hpos.1 hpos.2 b (staged_iff.mpr ⟨hdup, hcap⟩)
    exact ⟨hnext.counted, hnext.summed, hnext.stored⟩
  | payloadNotWritten b hst hpos hno =>
    rw [stagedAfter_payload hin hpos]
    have hnext := hs.next_of_not_staged hpos.1 hpos.2 b (not_staged_iff.mpr hno)
    exact ⟨hnext.counted, hnext.summed, hnext.stored⟩
  | armRejected c hbusy =>
    rw [stagedAfter_arm hin]
    exact ⟨hs.counted, hs.summed, hs.stored⟩
  | completion hdone =>
    have hpos : s.pos = 0#8 := hinv.posClosed (by simp [sessionOpen, show s.st = .done from hdone])
    exact .of_pos ((performAll_pos _ _).trans hpos) (by decide)
  | eot hst hpos => exact .of_pos ((performAll_pos _ _).trans hpos) (by decide)
  | reset | armAccepted | timeout | soh | illegal | newNumber | duplicateNumber | wrongNumberAwait | wrongNumberXfer
  | wrongComplement | checksumError | duplicate | overflow | accept =>
    exact .of_pos (performAll_pos _ _) (by simp)

/-- R85: the cursor rises by an accepted block alone, one that is staged and whose 128 bytes have been read. -/
theorem TableRow.commits {s u : State} {e : Event} {os : List Output} (h : TableRow s e os u) (hcur : s.cur < u.cur) :
    u.cur = s.cur + 128 ∧ s.pos = 131#8 ∧ staged s = true := by
  cases h with
  | accept b hst hpos hb hdup hcap => exact ⟨rfl, hpos, staged_iff.mpr ⟨hdup, hcap⟩⟩
  | reset | armAccepted => exact absurd hcur (Nat.not_lt_zero _)
  | _ => exact absurd hcur (Nat.lt_irrefl _)

/-- Settles O45: the step is a row, and a row keeps what is claimed of the bytes staged. The accepting row finds `pos` = 131,
so there are 128 of them, and it writes nothing. -/
theorem acceptedBlockIsTheBytesReceived : Obligations.AcceptedBlockIsTheBytesReceived := by
  intro s t bytes hinv hs hstep
  obtain ⟨e, rest, os, u, hin, hrow, rfl⟩ := tableRow_of_step hinv hstep
  refine ⟨hrow.keepsStaging hinv hs hin, fun hcur => ?_⟩
  rw [performAll_eq] at hcur ⊢
  obtain ⟨hcur', hpos, hstaged⟩ := hrow.commits hcur
  have h131 : s.pos.toNat = 131 := congrArg BitVec.toNat hpos
  have hcount := hs.counted (by omega)
  refine ⟨hcur', by omega, fun k hk => ?_⟩
  have hdest : u.dest.putAll os = s.dest := by
    rcases hrow.writes with ⟨_, -, ⟨-, -, h130, -⟩, -⟩ | ⟨-, hnone⟩
    · exact absurd (h131 ▸ h130 : 131 ≤ 130) (by decide)
    · rw [hnone, hrow.keepsDest]
  rw [hdest]
  exact hs.stored (by omega) hstaged k hk

end Sys2Proof.Machine
end

section
namespace Sys2Proof.Machine

/-! ## A row speaks of the registers alone (`42_sequencer.md` section 3) -/

/-- The state with what stands outside the registers replaced. -/
def State.withOutside (s : State) (m : Memory) (es : List Event) (ps qs : List Output) : State :=
  { s with dest := m, input := es, pend := ps, out := qs }

/-- A row leaves what stands outside the registers as it is. -/
theorem TableRow.keepsOutside {s u : State} {e : Event} {os : List Output} (h : TableRow s e os u) :
    u = u.withOutside s.dest s.input s.pend s.out := by
  cases h <;> rfl

/-- A row does not read what stands outside the registers. -/
theorem TableRow.outside {s u : State} {e : Event} {os : List Output} (h : TableRow s e os u) (m : Memory) (es : List Event)
    (ps qs : List Output) : TableRow (s.withOutside m es ps qs) e os (u.withOutside m es ps qs) := by
  cases h with
  | reset => exact .reset _
  | armAccepted c h => exact .armAccepted _ c h
  | armRejected c h => exact .armRejected _ c h
  | completion h => exact .completion _ h
  | timeout h => exact .timeout _ h
  | eot h hp => exact .eot _ h hp
  | soh h hp => exact .soh _ h hp
  | illegal b h hp h1 h4 => exact .illegal _ b h hp h1 h4
  | newNumber b h hp hb => exact .newNumber _ b h hp hb
  | duplicateNumber b h hp hb => exact .duplicateNumber _ b h hp hb
  | wrongNumberAwait b h hp hb => exact .wrongNumberAwait _ b h hp hb
  | wrongNumberXfer b h hp hb hd => exact .wrongNumberXfer _ b h hp hb hd
  | complement b h hp hb => exact .complement _ b h hp hb
  | wrongComplement b h hp hb => exact .wrongComplement _ b h hp hb
  | payloadWritten b h hp hd hc => exact .payloadWritten _ b h hp hd hc
  | payloadNotWritten b h hp hd => exact .payloadNotWritten _ b h hp hd
  | checksumError b h hp hb => exact .checksumError _ b h hp hb
  | duplicate b h hp hb hd => exact .duplicate _ b h hp hb hd
  | overflow b h hp hb hd hc => exact .overflow _ b h hp hb hd hc
  | accept b h hp hb hd hc => exact .accept _ b h hp hb hd hc

/-- The decoder and the instructions are functions, so an event's run has one result. -/
theorem Runs.unique {s v w : State} {e : Event} (hv : Runs s e v) (hw : Runs s e w) : v = w := by
  obtain ⟨i, hdi, hi⟩ := hv
  obtain ⟨j, hdj, hj⟩ := hw
  obtain rfl : i = j := by simpa [hdi] using hdj
  simpa [hi] using hj

theorem TableRow.unique {s u v : State} {e : Event} {os ps : List Output} (hu : TableRow s e os u) (hv : TableRow s e ps v) :
    os = ps ∧ u = v := by
  have runs {u : State} {os : List Output} (h : TableRow s e os u) :
      Runs (s.withOutside s.dest s.input [] s.out) e (u.withOutside s.dest s.input os s.out) :=
    runs_of_tableRow rfl (h.outside s.dest s.input [] s.out)
  have heq := (runs hu).unique (runs hv)
  have hregs := congrArg (State.withOutside · s.dest s.input s.pend s.out) heq
  exact ⟨congrArg State.pend heq, hu.keepsOutside.trans (hregs.trans hv.keepsOutside.symm)⟩

/-- R65: an event that has a row is enabled, for a row is a step. -/
theorem TableRow.enabled {s u : State} {e : Event} {os : List Output} (hpend : s.pend = []) (h : TableRow s e os u) :
    Machine.enabled s e = true :=
  enabled_of_step (s := { s with input := e :: s.input }) hpend rfl (step_of_tableRow hpend rfl h)

/-- Settles O40: a row is the run of a decoded instruction, which has one result; it needs an enabled event, and an enabled
event has one. -/
theorem transitionTableRowsAreExclusiveAndExhaustive : Obligations.TransitionTableRowsAreExclusiveAndExhaustive :=
  ⟨fun _ _ _ _ _ _ hu hv => hu.unique hv, fun _ _ hinv =>
    ⟨fun ⟨_, _, h⟩ => h.enabled hinv.delivered, tableRow_of_enabled hinv.posRange hinv.dupInXfer⟩⟩

/-! ## A step from any state

Without the invariants one step has no row: a duplicate in AWAIT, which no run reaches, is acknowledged like one in XFER
(log entry 13). -/

/-- What event `e` does in state `s`: it emits `os` and leads to the registers of `u`. -/
inductive Moves (s : State) (e : Event) (os : List Output) (u : State) : Prop where
  | row (h : TableRow s e os u)
  | awaitDuplicate (hst : s.st = .await) (hpos : s.pos = 131#8) (he : e = .rx s.sum) (hdup : s.dup = true)
      (hos : os = [.tx 0x06#8]) (hu : u = { s with pos := 0#8 })

theorem runs_of_moves {s u : State} {e : Event} {os : List Output} (hpend : s.pend = []) (h : Moves s e os u) :
    Runs s e (u.setPend os) := by
  cases h with
  | row h => exact runs_of_tableRow hpend h
  | awaitDuplicate hst hpos he hdup hos hu =>
    subst he hos hu
    have hrun := runs_sum (.inl hst) hpend s.sum hpos
    rwa [classify_of_duplicate rfl hdup, conclude_duplicate, hpend] at hrun

theorem Moves.deliverable {s u : State} {e : Event} {os : List Output} (h : Moves s e os u) :
    ∀ o ∈ os, Machine.deliverable o = true := by
  cases h with
  | row h => exact h.deliverable
  | awaitDuplicate hst hpos he hdup hos hu => simp [hos, Machine.deliverable]

theorem Moves.keepsOutside {s u : State} {e : Event} {os : List Output} (h : Moves s e os u) :
    u = u.withOutside s.dest s.input s.pend s.out := by
  cases h with
  | row h => exact h.keepsOutside
  | awaitDuplicate hst hpos he hdup hos hu =>
    subst hu
    rfl

theorem Moves.outside {s u : State} {e : Event} {os : List Output} (h : Moves s e os u) (m : Memory) (es : List Event)
    (ps qs : List Output) : Moves (s.withOutside m es ps qs) e os (u.withOutside m es ps qs) := by
  cases h with
  | row h => exact .row (h.outside m es ps qs)
  | awaitDuplicate hst hpos he hdup hos hu => exact .awaitDuplicate hst hpos he hdup hos (hu ▸ rfl)

/-- What an event leaves in `pend` is delivered, whatever it is. -/
theorem Moves.drain {s u : State} {e : Event} {os : List Output} (hpend : s.pend = []) (h : Moves s e os u) :
    Machine.drain (u.setPend os) = .next (u.performAll os) := by
  have hu : (u.setPend os).setPend [] = u := by
    rw [h.keepsOutside]
    simp [State.withOutside, State.setPend, hpend]
  simpa [hu] using drain_eq (s := u.setPend os) h.deliverable

theorem step_of_moves {s u : State} {e : Event} {rest : List Event} {os : List Output} (hpend : s.pend = [])
    (hin : s.input = e :: rest) (h : Moves (s.setInput rest) e os u) : step s = .next (u.performAll os) :=
  (step_of_runs hpend hin (runs_of_moves hpend h)).trans (h.drain (s := s.setInput rest) hpend)

theorem pos_le_of_decodeRx {pos b : Byte} {i : Instr} (h : decodeRx pos b = .ok i) : pos.toNat ≤ 131 := by
  unfold decodeRx at h
  split_ifs at h <;> omega

theorem moves_checksum {s : State} (hst : s.st = .await ∨ s.st = .xfer) (b : Byte) (hpos : s.pos = 131#8) :
    ∃ os u, Moves s (.rx b) os u := by
  by_cases hx : s.dup = true → s.st = .xfer
  · obtain ⟨os, u, h⟩ := tableRow_checksum hst b hpos hx
    exact ⟨os, u, .row h⟩
  · obtain ⟨hdup, hxfer⟩ := Classical.not_imp.mp hx
    by_cases hb : b = s.sum
    · exact ⟨_, _, .awaitDuplicate (hst.resolve_right hxfer) hpos (congrArg _ hb) hdup rfl rfl⟩
    · exact ⟨_, _, .row (.checksumError s b hst hpos hb)⟩

/-- An enabled event that can be read where the parser stands has its effect, in any state. -/
theorem moves_of_enabled {s : State} {e : Event} {i : Instr} (hd : decodeEvent s.pos e = .ok i) (h : enabled s e = true) :
    ∃ os u, Moves s e os u := by
  have of_row : (∃ os u, TableRow s e os u) → ∃ os u, Moves s e os u := fun ⟨os, u, h⟩ => ⟨os, u, .row h⟩
  cases e with
  | rx b =>
    have hst : s.st = .await ∨ s.st = .xfer := sessionOpen_iff.mp h
    rcases pos_cases (pos_le_of_decodeRx hd) with hp | hp | hp | hp | hp
    · exact of_row (tableRow_first hst b hp)
    · exact of_row (tableRow_number hst b hp)
    · exact of_row (tableRow_complement hst b hp)
    · exact of_row (tableRow_payload hst b hp)
    · exact moves_checksum hst b hp
  | tmo => exact ⟨_, _, .row (.timeout s (sessionOpen_iff.mp h))⟩
  | arm c =>
    by_cases hidle : s.st = .idle
    · exact ⟨_, _, .row (.armAccepted s c hidle)⟩
    · exact ⟨_, _, .row (.armRejected s c (by cases hs : s.st <;> simp_all))⟩
  | cpl => exact ⟨_, _, .row (.completion s (by simpa [enabled] using h))⟩
  | rst => exact ⟨_, _, .row (.reset s)⟩

/-- A step with nothing left to deliver is what the oldest event does, and the delivery of what that emits. -/
theorem moves_of_step {s t : State} {e : Event} {rest : List Event} (hpend : s.pend = []) (hin : s.input = e :: rest)
    (h : step s = .next t) : ∃ os u, Moves (s.setInput rest) e os u ∧ t = u.performAll os := by
  obtain ⟨e', rest', i, v, hin', hd, -⟩ := step_cases hpend h
  obtain ⟨rfl, rfl⟩ : e = e' ∧ rest = rest' := by simpa [hin] using hin'
  have hen : enabled s e = true := enabled_of_step hpend hin h
  obtain ⟨os, u, hm⟩ := moves_of_enabled (s := s.setInput rest) hd hen
  exact ⟨os, u, hm, by simpa [h] using step_of_moves hpend hin hm⟩

/-! ## Who writes a register (`10_state.md` section 2) -/

theorem Moves.sessionRegisters {s u : State} {e : Event} {os : List Output} (h : Moves s e os u) (hrst : e ≠ .rst)
    (harm : ¬ ((∃ c, e = .arm c) ∧ s.st = .idle))
    (haccept : ¬ ∃ b, e = .rx b ∧ s.pos = 131#8 ∧ b = s.sum ∧ s.dup = false ∧ 128 ≤ s.cap) :
    u.exp = s.exp ∧ u.cur = s.cur ∧ u.cap = s.cap := by
  cases h with
  | awaitDuplicate hst hpos he hdup hos hu =>
    subst hu
    exact ⟨rfl, rfl, rfl⟩
  | row h =>
    cases h with
    | reset => exact absurd rfl hrst
    | armAccepted c hidle => exact absurd ⟨⟨c, rfl⟩, hidle⟩ harm
    | accept b hst hpos hb hdup hcap => exact absurd ⟨b, rfl, hpos, hb, hdup, hcap⟩ haccept
    | _ => exact ⟨rfl, rfl, rfl⟩

/-- Settles O47: of the rows only reset, the accepted `ARM` and the accepted block write one of the three registers. -/
theorem sessionRegistersHaveThreeWriters : Obligations.SessionRegistersHaveThreeWriters := by
  intro s t e rest hpend hin hstep hrst harm haccept
  obtain ⟨os, u, hm, rfl⟩ := moves_of_step hpend hin hstep
  rw [performAll_eq]
  exact hm.sessionRegisters hrst harm haccept

/-- Settles O46: an accepted block moves 128 from `cap` to `cur`; every other event left writes neither. -/
theorem capacityIsConserved : Obligations.CapacityIsConserved := by
  intro s t e rest hinv hin hstep hrst harm
  by_cases haccept : ∃ b, e = .rx b ∧ s.pos = 131#8 ∧ b = s.sum ∧ s.dup = false ∧ 128 ≤ s.cap
  · obtain ⟨b, rfl, hpos, hb, hdup, hcap⟩ := haccept
    have hst : s.st = .await ∨ s.st = .xfer := sessionOpen_iff.mp (enabled_of_step hinv.delivered hin hstep)
    have hrun := step_of_tableRow hinv.delivered hin (.accept _ b hst hpos hb hdup hcap)
    obtain rfl : t = _ := by simpa [hstep] using hrun
    show s.cur + 128 + (s.cap - 128) = s.cur + s.cap
    omega
  · obtain ⟨-, hcur, hcap⟩ := sessionRegistersHaveThreeWriters s t e rest hinv.delivered hin hstep hrst harm haccept
    rw [hcur, hcap]

section
variable {s u : State} {e : Event} {os : List Output} (h : Moves s e os u) (hrst : e ≠ .rst)
include h hrst

theorem Moves.numberRegisters (hno : ¬ ∃ b, e = .rx b ∧ s.pos = 1#8 ∧ (b = s.exp ∨ s.st = .xfer ∧ b = s.exp - 1#8)) :
    u.blk = s.blk ∧ u.dup = s.dup := by
  cases h with
  | awaitDuplicate hst hpos he hdup hos hu =>
    subst hu
    exact ⟨rfl, rfl⟩
  | row h =>
    cases h with
    | reset => exact absurd rfl hrst
    | newNumber b hst hpos hb => exact absurd ⟨b, rfl, hpos, .inl hb⟩ hno
    | duplicateNumber b hst hpos hb => exact absurd ⟨b, rfl, hpos, .inr ⟨hst, hb⟩⟩ hno
    | _ => exact ⟨rfl, rfl⟩

theorem Moves.sumRegister
    (hno : ¬ ∃ b, e = .rx b ∧ (s.pos = 2#8 ∧ b = 255#8 - s.blk ∨ 3 ≤ s.pos.toNat ∧ s.pos.toNat ≤ 130)) :
    u.sum = s.sum := by
  cases h with
  | awaitDuplicate hst hpos he hdup hos hu =>
    subst hu
    rfl
  | row h =>
    cases h with
    | reset => exact absurd rfl hrst
    | complement b hst hpos hb => exact absurd ⟨b, rfl, .inl ⟨hpos, hb⟩⟩ hno
    | payloadWritten b hst hpos | payloadNotWritten b hst hpos => exact absurd ⟨b, rfl, .inr hpos⟩ hno
    | _ => rfl

theorem Moves.errRegister (harm : ¬ ((∃ c, e = .arm c) ∧ s.st = .idle)) (heot : ¬ (e = .rx 0x04#8 ∧ s.pos = 0#8))
    (hover : ¬ ∃ b, e = .rx b ∧ s.pos = 131#8 ∧ b = s.sum ∧ s.dup = false ∧ s.cap < 128) : u.err = s.err := by
  cases h with
  | awaitDuplicate hst hpos he hdup hos hu =>
    subst hu
    rfl
  | row h =>
    cases h with
    | reset => exact absurd rfl hrst
    | armAccepted c hidle => exact absurd ⟨⟨c, rfl⟩, hidle⟩ harm
    | eot hst hpos => exact absurd ⟨rfl, hpos⟩ heot
    | overflow b hst hpos hb hdup hcap => exact absurd ⟨b, rfl, hpos, hb, hdup, hcap⟩ hover
    | _ => rfl

end

/-- Settles O48: register by register, the rows that write it. -/
theorem frameRegistersAreWrittenAtTheirPositions : Obligations.FrameRegistersAreWrittenAtTheirPositions := by
  intro s t e rest hpend hin hstep hrst
  obtain ⟨os, u, hm, rfl⟩ := moves_of_step hpend hin hstep
  rw [performAll_eq]
  exact ⟨hm.numberRegisters hrst, hm.sumRegister hrst, hm.errRegister hrst⟩

/-! ## The session's end and its completion (`42_sequencer.md` R105) -/

/-- What a completion reports. -/
def completionOf : Output → Option (Nat × ErrFlag)
  | .complete len flag => some (len, flag)
  | .tx _ => none
  | .sinkWrite _ _ => none
  | .armRejected => none

theorem completions_eq (s : State) : s.completions = s.out.filterMap completionOf := by
  refine congrArg (s.out.filterMap ·) (funext fun o => ?_)
  cases o <;> rfl

theorem completions_performAll (s : State) (os : List Output) :
    (s.performAll os).completions = s.completions ++ os.filterMap completionOf := by
  rw [completions_eq, completions_eq, performAll_out, List.filterMap_append]

section
variable {s u : State} {e : Event} {os : List Output} (h : TableRow s e os u)
include h

/-- DONE is entered with the final response. -/
theorem TableRow.entersDone (hu : u.st = .done) (hs : s.st ≠ .done) :
    (s.st = .await ∨ s.st = .xfer) ∧ ∃ r, os = [.tx r] := by
  cases h with
  | eot hst | overflow _ hst => exact ⟨hst, _, rfl⟩
  | reset | armAccepted | completion | accept => cases hu
  | _ => exact absurd hu hs

theorem TableRow.leavesDone (hs : s.st = .done) (hu : u.st ≠ .done) : e = .cpl ∨ e = .rst := by
  cases h with
  | completion => exact .inl rfl
  | reset => exact .inr rfl
  | armAccepted c hidle => simp [hs] at hidle
  | accept b hst => simp [hs] at hst
  | eot | overflow => exact absurd rfl hu
  | _ => exact absurd hs hu

theorem TableRow.completes : os.filterMap completionOf = if e = .cpl then [(s.cur, s.err)] else [] := by
  cases h <;> rfl

theorem TableRow.cpl_done (he : e = .cpl) : s.st = .done ∧ u.st = .idle := by
  subst he
  cases h with
  | completion hdone => exact ⟨hdone, rfl⟩

end

/-- Settles O49: clause by clause, what the rows say of DONE and of completions. -/
theorem completionIsDeliveredOnceAfterTheResponse : Obligations.CompletionIsDeliveredOnceAfterTheResponse := by
  intro s t e rest hinv hin hstep
  obtain ⟨os, u, hrow, rfl⟩ := (stepIsTheTransitionTable s t e rest hinv hin).mp hstep
  have hst : (u.performAll os).st = u.st := by rw [performAll_eq]
  have hcompletions : u.completions = s.completions := by rw [completions_eq, completions_eq, hrow.keeps.2]
  rw [hst, performAll_out, hrow.keeps.2, completions_performAll, hcompletions, hrow.completes]
  refine ⟨fun hu hs => ?_, hrow.leavesDone, ?_, hrow.cpl_done⟩
  · obtain ⟨hopen, r, rfl⟩ := hrow.entersDone hu hs
    exact ⟨hopen, r, rfl⟩
  · split_ifs <;> simp

/-! ## What the engine does not read -/

/-- Settles O53: what an event does is stated without the sink and the trace, and delivery adds the same outputs to
either. -/
theorem sinkIsNeverRead : Obligations.SinkIsNeverRead := by
  intro s t m sent hpend hstep
  obtain ⟨e, rest, _, _, hin, -⟩ := step_cases hpend hstep
  obtain ⟨os, u, hm, rfl⟩ := moves_of_step hpend hin hstep
  have hout : u.out = s.out := by rw [hm.keepsOutside]; rfl
  have hstep' := step_of_moves (s := { s with dest := m, out := sent }) hpend hin (hm.outside m rest s.pend sent)
  refine ⟨m.putAll os, os, ?_, by rw [performAll_out, hout]⟩
  rw [hstep', performAll_eq, performAll_eq, hm.keepsOutside]
  rfl

/-- Settles O54: at a payload position both bytes have the same row, which says where the byte is stored, if it is. -/
theorem payloadValueNeverSteersTheEngine : Obligations.PayloadValueNeverSteersTheEngine := by
  intro s t b c rest hpend h3 h130 hin hstep
  have hst : s.st = .await ∨ s.st = .xfer := sessionOpen_iff.mp (enabled_of_step hpend hin hstep)
  by_cases hstaged : staged s = true
  · obtain ⟨hdup, hcap⟩ := staged_iff.mp hstaged
    have hrun := step_of_tableRow hpend hin (.payloadWritten _ b hst ⟨h3, h130⟩ hdup hcap)
    have hrun' := step_of_tableRow (s := { s with input := .rx c :: rest }) hpend rfl
      (.payloadWritten _ c hst ⟨h3, h130⟩ hdup hcap)
    obtain rfl : t = _ := by simpa [hstep] using hrun
    refine ⟨_, hrun', rfl, rfl, ?_⟩
    rw [if_pos hstaged, stagingOffset_eq h3]
    exact ⟨rfl, rfl, Memory.read_write_self _ _ _, Memory.read_write_self _ _ _, fun a ha =>
      (Memory.read_write_of_ne c ha).trans (Memory.read_write_of_ne b ha).symm⟩
  · have hno : s.dup = true ∨ s.cap < 128 := not_staged_iff.mp hstaged
    have hrun := step_of_tableRow hpend hin (.payloadNotWritten _ b hst ⟨h3, h130⟩ hno)
    have hrun' := step_of_tableRow (s := { s with input := .rx c :: rest }) hpend rfl
      (.payloadNotWritten _ c hst ⟨h3, h130⟩ hno)
    obtain rfl : t = _ := by simpa [hstep] using hrun
    refine ⟨_, hrun', rfl, rfl, ?_⟩
    rw [if_neg hstaged]
    exact ⟨rfl, rfl, rfl⟩

end Sys2Proof.Machine
end

section
namespace Sys2Proof.Machine

/-! ## Arithmetic (`41_block_validator.md` section 2) -/

/-- The accumulator holds the sum of what it started with and the bytes so far, modulo 256. -/
theorem foldl_addToSum_toNat (p : List Byte) (a : Byte) :
    (p.foldl addToSum a).toNat = (a.toNat + (p.map BitVec.toNat).sum) % 256 := by
  induction p generalizing a with
  | nil => simp [Nat.mod_eq_of_lt a.isLt]
  | cons b p ih =>
    rw [List.foldl_cons, ih, List.map_cons, List.sum_cons, addToSum, BitVec.toNat_add]
    omega

/-- R88: no borrow, so the subtraction is the bitwise complement. -/
theorem complementOf_eq_xor (n : Byte) : complementOf n = n ^^^ 0xFF#8 := by
  have hnot : ~~~n = 255#8 - n := by
    apply BitVec.eq_of_toNat_eq
    rw [BitVec.toNat_not, BitVec.toNat_sub_of_le (by bv_omega)]
    rfl
  exact hnot.symm.trans (BitVec.xor_allOnes (x := n)).symm

/-- Settles O31: the checksum by induction on the payload, the rest about one byte. -/
theorem byteArithmeticIsModulo256 : Obligations.ByteArithmeticIsModulo256 := by
  refine ⟨fun p => ?sum, fun s b => ?compare, fun n => ⟨?wrap, ?back⟩, fun n => ⟨?borrow, complementOf_eq_xor n⟩⟩
  case sum => simpa [checksumOf] using foldl_addToSum_toNat p 0#8
  case compare => exact sumOk_iff.trans BitVec.toNat_eq
  case wrap => exact BitVec.toNat_add n 1#8
  case back => exact BitVec.add_sub_cancel n 1#8
  case borrow => exact BitVec.toNat_sub_of_le (x := 255#8) (by bv_omega)

theorem toNat_ofNat_W {n : Nat} (h : n < 2 ^ Config.W) : (BitVec.ofNat Config.W n).toNat = n :=
  (BitVec.toNat_ofNat n Config.W).trans (Nat.mod_eq_of_lt h)

/-- Settles O32: `cur + cap` stays below `2^W`, and what is added to `cur` or taken from `cap` is at most `cap`. -/
theorem naturalsAreTheWBitOperations : Obligations.NaturalsAreTheWBitOperations := by
  intro s hinv
  have hroom := hinv.roomBounded
  have hcur := toNat_ofNat_W (n := s.cur) (by omega)
  have hcap := toNat_ofNat_W (n := s.cap) (by omega)
  have hblock := toNat_ofNat_W (lt_two_pow_W (n := 128) (by decide))
  refine ⟨by omega, by omega, fun hfits => ⟨?_, ?_⟩, fun hfits h3 h130 => ?_⟩
  · have h128 : 128 ≤ s.cap := fits_iff.mp hfits
    rw [advance_eq, BitVec.toNat_add_of_lt (by omega), hcur, hblock]
  · have h128 : 128 ≤ s.cap := fits_iff.mp hfits
    rw [consume_eq, BitVec.toNat_sub_of_le (BitVec.le_def.mpr (by omega)), hcap, hblock]
  · have h128 : 128 ≤ s.cap := fits_iff.mp hfits
    have hsub : (s.pos - 3#8).toNat = s.pos.toNat - 3 := by bv_omega
    have hindex : ((s.pos - 3#8).setWidth Config.W).toNat = s.pos.toNat - 3 := by
      rw [BitVec.toNat_setWidth, hsub, Nat.mod_eq_of_lt (lt_two_pow_W (by omega))]
    rw [stagingOffset_eq h3, BitVec.toNat_add_of_lt (by omega), hcur, hindex]

end Sys2Proof.Machine
end

section
namespace Sys2Proof.Machine

/-! ## The instructions one by one

An instruction with a row in the table does what the row says, and leaves the row's outputs in `pend`. -/

theorem exec_of_tableRow {s u : State} {e : Event} {i : Instr} {os : List Output} (hd : decodeEvent s.pos e = .ok i)
    (hpend : s.pend = []) (h : TableRow s e os u) : exec i s = .next (u.setPend os) := by
  obtain ⟨j, hdj, hrun⟩ := runs_of_tableRow hpend h
  obtain rfl : i = j := by simpa [hd] using hdj
  exact hrun

theorem exec_of_rxRow {s u : State} {b : Byte} {i : Instr} {os : List Output} (hd : decodeRx s.pos b = .ok i)
    (hpend : s.pend = []) (h : TableRow s (.rx b) os u) : exec i s = .next (u.setPend os) :=
  exec_of_tableRow (e := .rx b) hd hpend h

theorem decodeRx_number {pos : Byte} (b : Byte) (h : pos = 1#8) : decodeRx pos b = .ok (.dataBlk b) := by
  subst h
  rfl

theorem decodeRx_complement {pos : Byte} (b : Byte) (h : pos = 2#8) : decodeRx pos b = .ok (.dataCmp b) := by
  subst h
  rfl

theorem decodeRx_checksum {pos : Byte} (b : Byte) (h : pos = 131#8) : decodeRx pos b = .ok (.dataSum b) := by
  subst h
  rfl

/-- Settles O2: the three rows at `pos` = 1. -/
theorem blockNumberIsNewDuplicateOrRejected : Obligations.BlockNumberIsNewDuplicateOrRejected := by
  intro s b hst hpend hpos
  have run {u : State} {os : List Output} (h : TableRow s (.rx b) os u) : exec (.dataBlk b) s = .next (u.setPend os) :=
    exec_of_rxRow (decodeRx_number b hpos) hpend h
  by_cases hnew : b = s.exp
  · rw [if_pos hnew, run (.newNumber s b hst hpos hnew)]
    simp [State.setPend, hpend]
  by_cases hdup : s.st = .xfer ∧ b = s.exp - 1#8
  · rw [if_neg hnew, if_pos hdup, run (.duplicateNumber s b hdup.1 hpos hdup.2)]
    simp [State.setPend, hpend]
  rw [if_neg hnew, if_neg hdup]
  rcases hst with hst | hst
  · exact run (.wrongNumberAwait s b hst hpos hnew)
  · exact run (.wrongNumberXfer s b hst hpos hnew fun hb => hdup ⟨hst, hb⟩)

/-- R88: `255 - n` does not borrow, so the test on bytes is the test on numbers. -/
theorem eq_complement_iff {b n : Byte} : b = 255#8 - n ↔ b.toNat = 255 - n.toNat := by
  rw [BitVec.toNat_eq, BitVec.toNat_sub_of_le (by bv_omega)]
  rfl

/-- Settles O3: the two rows at `pos` = 2. -/
theorem complementOpensPayloadOrIsRejected : Obligations.ComplementOpensPayloadOrIsRejected := by
  intro s b hst hpend hpos
  have run {u : State} {os : List Output} (h : TableRow s (.rx b) os u) : exec (.dataCmp b) s = .next (u.setPend os) :=
    exec_of_rxRow (decodeRx_complement b hpos) hpend h
  by_cases hb : b.toNat = 255 - s.blk.toNat
  · rw [if_pos hb, run (.complement s b hst hpos (eq_complement_iff.mpr hb))]
    simp [State.setPend, hpend]
  · rw [if_neg hb]
    exact run (.wrongComplement s b hst hpos (mt eq_complement_iff.mp hb))

/-- Settles O4: the two rows at `pos` = 3..130. -/
theorem payloadByteIsSummedAndStaged : Obligations.PayloadByteIsSummedAndStaged := by
  intro s b hst hpend h3 h130
  have run {u : State} {os : List Output} (h : TableRow s (.rx b) os u) : exec (.dataPay b) s = .next (u.setPend os) :=
    exec_of_rxRow (decodeRx_payload b h3 h130) hpend h
  by_cases hroom : s.dup = false ∧ 128 ≤ s.cap
  · rw [if_pos hroom]
    exact run (.payloadWritten s b hst ⟨h3, h130⟩ hroom.1 hroom.2)
  · rw [if_neg hroom]
    exact run (.payloadNotWritten s b hst ⟨h3, h130⟩ (not_staged_iff.mp (mt staged_iff.mp hroom)))

/-- Settles O7: the row of Overflow. -/
theorem blockThatDoesNotFitOverflows : Obligations.BlockThatDoesNotFitOverflows := fun s b hst hpend hpos hb hdup hcap =>
  exec_of_rxRow (decodeRx_checksum b hpos) hpend (.overflow s b hst hpos hb hdup hcap)

/-- Settles O8: the row of the accepted block. -/
theorem blockThatFitsIsCommitted : Obligations.BlockThatFitsIsCommitted := fun s b hst hpend hpos hb hdup hcap =>
  exec_of_rxRow (decodeRx_checksum b hpos) hpend (.accept s b hst hpos hb hdup hcap)

/-- Settles O10: the row of the illegal first byte, which writes `pos` <- 0 where `pos` is 0. -/
theorem illegalFirstByteIsNaked : Obligations.IllegalFirstByteIsNaked := by
  intro s b hwf hst hpend hpos
  obtain ⟨h1, h4⟩ := illegal_wellFormed_iff.mp hwf
  have hd : decodeRx s.pos b = .ok (.illegal b) := by
    rw [hpos]
    exact congrArg _ (decodeFirst_illegal hwf)
  rw [exec_of_rxRow hd hpend (.illegal s b hst hpos h1 h4)]
  simp [State.setPend, hpos]

/-- Settles O11: the row of the timeout. -/
theorem timeoutAbandonsFrameWithNak : Obligations.TimeoutAbandonsFrameWithNak := fun s hst hpend =>
  exec_of_tableRow (e := .tmo) rfl hpend (.timeout s hst)

/-! ## The instructions that no read waits for (`42_sequencer.md` section 2)

They run whatever is still to be delivered. -/

theorem exec_arm (c : Nat) (s : State) :
    exec (.arm c) s = .next (if s.st = .idle then s.openSession c else s.emit .armRejected) := rfl

/-- Settles O12. -/
theorem armInIdleOpensSession : Obligations.ArmInIdleOpensSession := by
  intro s c hidle
  rw [exec_arm, if_pos hidle]
  rfl

/-- Settles O13. -/
theorem armElsewhereIsRejected : Obligations.ArmElsewhereIsRejected := by
  intro s c hidle
  rw [exec_arm, if_neg hidle]
  rfl

/-- Settles O14: `CPL` is enabled in DONE alone. -/
theorem completionReportsCursorAndFlag : Obligations.CompletionReportsCursorAndFlag := fun _ hdone => if_pos hdone

/-- Settles O15: `RST` asks for no state. -/
theorem resetWritesTheNineRegisters : Obligations.ResetWritesTheNineRegisters := fun _ => rfl

/-- Settles O16: a response instruction records its byte of R54. -/
theorem responseInstructionsTransmitTheirByte : Obligations.ResponseInstructionsTransmitTheirByte := fun _ => ⟨rfl, rfl⟩

/-! ## Refusals and faults -/

/-- A frame whose start marker is refused is refused. -/
theorem execData_of_refused {n c k : Byte} {p : List Byte} {s : State} {r : Refusal} (h : exec .dataSoh s = .refused r) :
    exec (.data n c p k) s = .refused r := by
  change andThen (exec .dataSoh s) _ = _
  rw [h, andThen_refused]

theorem not_sessionOpen_of_closed {s : State} (h : s.st = .idle ∨ s.st = .done) : sessionOpen s = false := by
  rcases h with h | h <;> simp [sessionOpen, h]

/-- Settles O17: no read is pending outside an open session, and `CPL` asks for DONE. -/
theorem eventsWithoutARuleAreNotEnabled : Obligations.EventsWithoutARuleAreNotEnabled := by
  refine ⟨fun s i hclosed hi => ?byte, fun s n c k p hclosed => ?frame, fun s hdone => if_neg hdone⟩
  case byte =>
    rcases hi with rfl | ⟨pos, b, hd⟩
    · exact receiving_of_closed (not_sessionOpen_of_closed hclosed)
    · obtain ⟨t, ht⟩ := exec_of_decodeRx s hd
      exact ht.trans (receiving_of_closed (not_sessionOpen_of_closed hclosed))
  case frame => exact execData_of_refused (receiving_of_closed (not_sessionOpen_of_closed hclosed))

/-- While a read is pending, a byte instruction at another position than its own is refused as such (log entry 8). -/
theorem receiving_of_elsewhere {i : Instr} {s t : State} (h : readPending s = true) (hp : i.standsAt s.pos = false) :
    receiving i s t = .refused .notAtPosition := by
  simp [receiving, h, hp]

theorem decodeRx_of_outside {pos : Byte} (b : Byte) (h : 132 ≤ pos.toNat) : decodeRx pos b = .error .positionOutOfRange := by
  rw [decodeRx, if_neg (by omega), if_neg (by omega), if_neg (by omega), if_neg (by omega), if_neg (by omega)]

theorem deliver_of_no_response {b : Byte} (s : State) (ha : b ≠ Config.ACK) (hn : b ≠ Config.NAK) :
    deliver (.tx b) s = .refused .notAResponse := by
  simp [deliver, decodeResponse, ha, hn]

/-- Settles O19 (log entries 3, 5, 8): stop by stop, the operation that raises it. -/
theorem stopsOutsideTheRulesAreNamed : Obligations.StopsOutsideTheRulesAreNamed := by
  refine ⟨fun s i hst hpend ⟨pos, b, hd⟩ hat => ?position, fun s n c k p hst hpend hpos => ?frame,
    fun s b rest hpend hin hpos => ?range, fun s hpend hin => step_of_no_event hpend hin, fun s b os hpend ha hn => ?response⟩
  case position =>
    obtain ⟨t, ht⟩ := exec_of_decodeRx s hd
    exact ht.trans (receiving_of_elsewhere (readPending_iff.mpr ⟨hst, hpend⟩) hat)
  case frame =>
    have hat : Instr.dataSoh.standsAt s.pos = false := Bool.eq_false_iff.mpr (mt standsAt_dataSoh_iff.mp hpos)
    exact execData_of_refused (receiving_of_elsewhere (readPending_iff.mpr ⟨hst, hpend⟩) hat)
  case range => simp [step, cycle, fetch, hpend, hin, decodeEvent, decodeRx_of_outside b hpos]
  case response =>
    rw [step_of_pending (by simp [hpend]), drain, hpend, deliverAll, deliver_of_no_response _ ha hn]
    rfl

/-! ## The step, the reset state and the interval of a read -/

/-- Settles O34. -/
theorem stepRunsTheDecodedInstruction : Obligations.StepRunsTheDecodedInstruction := by
  intro s e rest i hpend hin hd
  have hf : fetch s = .next (i, rest) := fetch_eq_next.mpr ⟨e, hin, hd⟩
  have hstep : step s = andThen (exec i (s.setInput rest)) drain := by simp [step, cycle, hpend, hf]
  exact hstep

/-- Settles O36. -/
theorem resetStateHasTheListedValues : Obligations.ResetStateHasTheListedValues :=
  ⟨rfl, rfl, rfl, rfl, rfl, rfl, rfl, rfl, rfl, rfl, rfl, rfl, rfl⟩

theorem readInterval_of_pending {s : State} (h : readPending s = true) :
    readInterval s = if s.pos.toNat = 0 ∧ s.st = .await then some .tIdle else some .tByte := if_pos h

/-- Settles O55 (D19): the first read of a session alone carries the longer interval. -/
theorem readIntervalFollowsPosition : Obligations.ReadIntervalFollowsPosition := by
  intro s
  refine ⟨fun hst hpend hpos => ?_, fun hst hpend hpos => ?_, fun hst hpend => ?_, fun hclosed => if_neg ?_⟩
  · rw [readInterval_of_pending (readPending_iff.mpr ⟨.inl hst, hpend⟩)]
    exact if_pos ⟨congrArg BitVec.toNat hpos, hst⟩
  · rw [readInterval_of_pending (readPending_iff.mpr ⟨.inl hst, hpend⟩)]
    exact if_neg fun h => hpos (BitVec.eq_of_toNat_eq h.1)
  · rw [readInterval_of_pending (readPending_iff.mpr ⟨.inr hst, hpend⟩)]
    exact if_neg fun h => by simp [hst] at h
  · rw [readPending_iff]
    rintro ⟨hopen, hpend⟩
    rcases hclosed with h | h | h
    · simp [h] at hopen
    · simp [h] at hopen
    · exact h hpend

end Sys2Proof.Machine
end

section
namespace Sys2Proof.Machine

/-! ## Frame attempts (`40_frame_parser.md` section 7) -/

/-- What is outside a frame attempt's reach: the session's registers, the events to come, and nothing left to deliver. -/
structure SameSession (s t : State) : Prop where
  st : t.st = s.st
  exp : t.exp = s.exp
  cur : t.cur = s.cur
  cap : t.cap = s.cap
  err : t.err = s.err
  input : t.input = s.input
  pend : t.pend = s.pend

theorem SameSession.refl (s : State) : SameSession s s := ⟨rfl, rfl, rfl, rfl, rfl, rfl, rfl⟩

theorem SameSession.trans {s t u : State} (h : SameSession s t) (h' : SameSession t u) : SameSession s u where
  st := h'.st.trans h.st
  exp := h'.exp.trans h.exp
  cur := h'.cur.trans h.cur
  cap := h'.cap.trans h.cap
  err := h'.err.trans h.err
  input := h'.input.trans h.input
  pend := h'.pend.trans h.pend

theorem SameSession.performAll {s u : State} (h : SameSession s u) (os : List Output) : SameSession s (u.performAll os) := by
  rw [performAll_eq]
  exact ⟨h.st, h.exp, h.cur, h.cap, h.err, h.input, h.pend⟩

/-- The bytes `bs` are taken one after another from `s`, none of them ending the attempt, and lead to `t`. -/
inductive InFrame : State → List Byte → State → Prop where
  | nil (s : State) : InFrame s [] s
  | cons {s u t : State} {b : Byte} {bs : List Byte} {os : List Output} (h : TableRow s (.rx b) os u) (hpos : u.pos ≠ 0#8)
      (hrest : InFrame (u.performAll os) bs t) : InFrame s (b :: bs) t

/-- The events `es`, taken from `s`, are exactly one frame attempt, a timeout perhaps its end, and lead to `v`. -/
inductive Attempted : State → List Event → State → Prop where
  | last {s u : State} {e : Event} {os : List Output} (h : TableRow s e os u) (hend : AttemptEnds e u.pos) :
      Attempted s [e] (u.performAll os)
  | cons {s u v : State} {b : Byte} {es : List Event} {os : List Output} (h : TableRow s (.rx b) os u) (hpos : u.pos ≠ 0#8)
      (hrest : Attempted (u.performAll os) es v) : Attempted s (.rx b :: es) v

theorem InFrame.append {s t v : State} {bs cs : List Byte} (h : InFrame s bs t) (h' : InFrame t cs v) :
    InFrame s (bs ++ cs) v := by
  induction h with
  | nil => exact h'
  | cons hrow hpos _ ih => exact .cons hrow hpos (ih h')

theorem InFrame.take {s t : State} {bs : List Byte} (h : InFrame s bs t) (m : Nat) : ∃ t', InFrame s (bs.take m) t' := by
  induction h generalizing m with
  | nil s => exact ⟨s, by simpa using .nil s⟩
  | @cons s _ _ _ _ _ hrow hpos _ ih =>
    cases m with
    | zero => exact ⟨s, .nil s⟩
    | succ m =>
      obtain ⟨t', ht'⟩ := ih m
      exact ⟨t', .cons hrow hpos ht'⟩

theorem InFrame.attempted {s t v : State} {bs : List Byte} {es : List Event} (h : InFrame s bs t) (h' : Attempted t es v) :
    Attempted s (received bs ++ es) v := by
  induction h with
  | nil => exact h'
  | cons hrow hpos _ ih => exact .cons hrow hpos (ih h')

theorem transmitted_of_row {s u : State} {e : Event} {os : List Output} (h : TableRow s e os u) :
    (u.performAll os).transmitted = s.transmitted ++ os.filterMap responseOf := by
  rw [transmitted_performAll, transmitted_eq, h.keeps.2, ← transmitted_eq]

/-- A row delivers its outputs and takes no further event. -/
theorem input_pend_of_row {s u : State} {e : Event} {os : List Output} (h : TableRow s e os u) :
    (u.performAll os).input = s.input ∧ (u.performAll os).pend = s.pend := by
  rw [performAll_eq, h.keepsOutside]
  exact ⟨rfl, rfl⟩

/-- A byte that does not end the attempt moves `pos` on by one, leaves the session and draws no response. -/
theorem TableRow.inside {s u : State} {b : Byte} {os : List Output} (h : TableRow s (.rx b) os u) (hu : u.pos ≠ 0#8) :
    SameSession s u ∧ u.pos = s.pos + 1#8 ∧ (u.performAll os).transmitted = s.transmitted := by
  suffices hrow : SameSession s u ∧ u.pos = s.pos + 1#8 ∧ os.filterMap responseOf = [] by
    obtain ⟨hsame, hpos, hsilent⟩ := hrow
    exact ⟨hsame, hpos, by rw [transmitted_of_row h, hsilent, List.append_nil]⟩
  cases h with
  | soh hst hpos | newNumber _ hst hpos | duplicateNumber _ hst hpos | complement _ hst hpos =>
    exact ⟨⟨rfl, rfl, rfl, rfl, rfl, rfl, rfl⟩, by simp [hpos], rfl⟩
  | payloadWritten | payloadNotWritten => exact ⟨⟨rfl, rfl, rfl, rfl, rfl, rfl, rfl⟩, rfl, rfl⟩
  | eot hst hpos => exact absurd hpos hu
  | _ => exact absurd rfl hu

theorem InFrame.keeps {s t : State} {bs : List Byte} (h : InFrame s bs t) :
    SameSession s t ∧ t.transmitted = s.transmitted := by
  induction h with
  | nil s => exact ⟨.refl s, rfl⟩
  | cons hrow hpos _ ih =>
    obtain ⟨hsame, -, hsilent⟩ := hrow.inside hpos
    exact ⟨(hsame.performAll _).trans ih.1, ih.2.trans hsilent⟩

/-- The row that ends an attempt leads to `pos` = 0 with one response (R103). -/
theorem TableRow.ends {s u : State} {e : Event} {os : List Output} (h : TableRow s e os u) (hend : AttemptEnds e u.pos) :
    u.pos = 0#8 ∧ ∃ r, (r = 0x06#8 ∨ r = 0x15#8) ∧ os.filterMap responseOf = [r] := by
  constructor
  · rcases hend with rfl | ⟨-, hpos⟩
    · cases h
      rfl
    · exact hpos
  · rcases h.answered with ⟨-, hr⟩ | ⟨-, -, hr⟩ | ⟨-, hno, -⟩
    · exact ⟨_, .inl rfl, hr⟩
    · exact ⟨_, .inr rfl, hr⟩
    · exact absurd hend hno

/-- R103: an attempt leads to `pos` = 0 with exactly one response, and takes its own events alone. -/
theorem Attempted.ends {s v : State} {es : List Event} (h : Attempted s es v) :
    v.pos = 0#8 ∧ v.input = s.input ∧ v.pend = s.pend ∧
      ∃ r, (r = 0x06#8 ∨ r = 0x15#8) ∧ v.transmitted = s.transmitted ++ [r] := by
  induction h with
  | last hrow hend =>
    obtain ⟨hpos, r, hr, hsent⟩ := hrow.ends hend
    obtain ⟨hinput, hpend⟩ := input_pend_of_row hrow
    exact ⟨(performAll_pos _ _).trans hpos, hinput, hpend, r, hr, hsent ▸ transmitted_of_row hrow⟩
  | cons hrow hpos _ ih =>
    obtain ⟨hinput, hpend⟩ := input_pend_of_row hrow
    obtain ⟨-, -, hsilent⟩ := hrow.inside hpos
    obtain ⟨hpos', hinput', hpend', r, hr, hsent⟩ := ih
    rw [hsilent] at hsent
    exact ⟨hpos', hinput'.trans hinput, hpend'.trans hpend, r, hr, hsent⟩

/-! ## The three ways an attempt is run -/

theorem drain_of_row {s u : State} {e : Event} {os : List Output} (hpend : s.pend = []) (h : TableRow s e os u) :
    drain (u.setPend os) = .next (u.performAll os) := (Moves.row h).drain hpend

/-- A row runs in front of whatever other events there are. -/
theorem step_of_row_offered {s u : State} {e : Event} {os : List Output} (hpend : s.pend = []) (h : TableRow s e os u)
    (rest : List Event) : step (s.setInput (e :: rest)) = .next ((u.performAll os).setInput rest) := by
  have hstep := step_of_tableRow (s := s.setInput (e :: rest)) hpend rfl (h.outside s.dest rest s.pend s.out)
  rw [hstep, performAll_eq, performAll_eq, h.keepsOutside]
  rfl

/-- By `step`, with the attempt's events in front of the others. -/
theorem Attempted.runSteps {s v : State} {es : List Event} (hpend : s.pend = []) (h : Attempted s es v) (rest : List Event) :
    Machine.runSteps es.length (s.setInput (es ++ rest)) = .next (v.setInput rest) := by
  induction h with
  | last hrow _ => exact congrArg (andThen · _) (step_of_row_offered hpend hrow rest)
  | cons hrow _ _ ih =>
    exact (congrArg (andThen · _) (step_of_row_offered hpend hrow _)).trans (ih ((input_pend_of_row hrow).2.trans hpend))

/-- By `step`, with each event offered when the one before has been taken. -/
theorem Attempted.runEvents {s v : State} {es : List Event} (hpend : s.pend = []) (hin : s.input = []) (h : Attempted s es v) :
    Machine.runEvents es s = .next v := by
  have offered {s u : State} {e : Event} {os : List Output} (hpend : s.pend = []) (hin : s.input = [])
      (h : TableRow s e os u) : step (s.offer e) = .next (u.performAll os) := by
    have hs : (u.performAll os).setInput [] = u.performAll os := by
      rw [performAll_eq, h.keepsOutside, hin]
      rfl
    have hoffer : s.offer e = s.setInput [e] := by simp [State.offer, State.setInput, hin]
    rw [hoffer, step_of_row_offered hpend h [], hs]
  induction h with
  | last hrow _ => exact congrArg (andThen · _) (offered hpend hin hrow)
  | cons hrow _ _ ih =>
    obtain ⟨hinput, hpend'⟩ := input_pend_of_row hrow
    exact (congrArg (andThen · _) (offered hpend hin hrow)).trans (ih (hpend'.trans hpend) (hinput.trans hin))

/-- The byte's instruction is the one the decoder reads at `pos`. -/
def FrameByte.ReadAt (pos : Byte) (f : FrameByte) : Prop := ∃ i, decodeRx pos f.byte = .ok i ∧ f.run = exec i

/-- The instructions are those the decoder reads from `pos` on, a byte a position. -/
def ReadFrom : Byte → List FrameByte → Prop
  | _, [] => True
  | pos, f :: fs => f.ReadAt pos ∧ ReadFrom (pos + 1#8) fs

theorem attempt_of_row {s u : State} {f : FrameByte} {os : List Output} (hf : f.ReadAt s.pos) (hpend : s.pend = [])
    (h : TableRow s (.rx f.byte) os u) (fs : List FrameByte) :
    attempt (f :: fs) s = if u.pos.toNat = 0 then
      .next ((u.performAll os).setInput (received (fs.map FrameByte.byte) ++ s.input)) else attempt fs (u.performAll os) := by
  obtain ⟨i, hd, hf⟩ := hf
  have hin : (u.performAll os).input = s.input := (input_pend_of_row h).1
  simp [attempt, hf, exec_of_rxRow hd hpend h, drain_of_row hpend h, performAll_pos, hin, received, Function.comp_def]

/-- By the DATA row, which puts the bytes it has not taken in front of the other events. -/
theorem Attempted.attempt {s v : State} {es : List Event} (h : Attempted s es v) {fs : List FrameByte} (hpend : s.pend = [])
    (hread : ReadFrom s.pos fs) (hes : es = received (fs.map FrameByte.byte)) (gs : List FrameByte) :
    Machine.attempt (fs ++ gs) s = .next (v.setInput (received (gs.map FrameByte.byte) ++ s.input)) := by
  induction h generalizing fs with
  | last hrow hend =>
    cases fs with
    | nil => simp [received] at hes
    | cons f fs =>
      obtain ⟨rfl, hnil⟩ := List.cons.inj hes
      obtain rfl : fs = [] := by simpa [received] using hnil.symm
      have hpos := congrArg BitVec.toNat (hrow.ends hend).1
      exact (attempt_of_row hread.1 hpend hrow gs).trans (if_pos hpos)
  | @cons s u v b es os hrow hpos _ ih =>
    cases fs with
    | nil => simp [received] at hes
    | cons f fs =>
      obtain ⟨hb, hes'⟩ := List.cons.inj hes
      obtain rfl : b = f.byte := by simpa using hb
      obtain ⟨-, hnext, -⟩ := hrow.inside hpos
      obtain ⟨hinput, hpend'⟩ := input_pend_of_row hrow
      have hpos' : ¬ u.pos.toNat = 0 := fun h => hpos (BitVec.eq_of_toNat_eq h)
      have hread' : ReadFrom (u.performAll os).pos fs := by
        rw [performAll_pos, hnext]
        exact hread.2
      have hrest := ih (hpend'.trans hpend) hread' hes'
      rw [hinput] at hrest
      exact (attempt_of_row hread.1 hpend hrow (fs ++ gs)).trans ((if_neg hpos').trans hrest)

end Sys2Proof.Machine
end

section
namespace Sys2Proof.Machine

/-! ## The sink writes of a payload (`43_sink.md` R110) -/

/-- The payload's bytes in order, the first at offset `off`. -/
def stagingWrites (off : Nat) (p : List Byte) : List Output := p.mapIdx fun k b => .sinkWrite (off + k) b

theorem stagingWrites_cons (off : Nat) (b : Byte) (p : List Byte) :
    stagingWrites off (b :: p) = .sinkWrite off b :: stagingWrites (off + 1) p := by
  simp only [stagingWrites, List.mapIdx_cons, Nat.add_zero, Nat.add_assoc, Nat.add_comm 1]

/-- After them the sink holds the payload from `off` on, and everywhere else what it held. -/
theorem read_putAll_stagingWrites (m : Memory) (off : Nat) (p : List Byte) (a : Nat) :
    (m.putAll (stagingWrites off p)).read a = if off ≤ a ∧ a < off + p.length then p[a - off]? else m.read a := by
  induction p generalizing m off with
  | nil => exact (if_neg (by simp)).symm
  | cons b p ih =>
    rw [stagingWrites_cons, Memory.putAll, ih, List.length_cons]
    rcases Nat.lt_trichotomy a off with hlt | rfl | hgt
    · rw [if_neg (by omega), if_neg (by omega), Memory.read_write_of_ne b (by omega)]
    · rw [if_neg (by omega), if_pos (by omega), Memory.read_write_self]
      simp
    · by_cases hin : a < off + 1 + p.length
      · rw [if_pos (by omega), if_pos (by omega), show a - off = a - (off + 1) + 1 by omega, List.getElem?_cons_succ]
      · rw [if_neg (by omega), if_neg (by omega), Memory.read_write_of_ne b (by omega)]

/-- They are no response and no completion. -/
theorem filterMap_stagingWrites {α : Type} {f : Output → Option α} (hf : ∀ off v, f (.sinkWrite off v) = none) (off : Nat)
    (p : List Byte) : (stagingWrites off p).filterMap f = [] := by
  induction p generalizing off with
  | nil => rfl
  | cons b p ih => rw [stagingWrites_cons, List.filterMap_cons_none (hf off b), ih]

/-! ## The states inside a frame -/

/-- The header of a frame with number `n` has been taken (R74, R75). -/
def State.headed (n : Byte) (s : State) : State := { s with pos := 3#8, blk := n, dup := n != s.exp, sum := 0#8 }

/-- The writes of the payload bytes `p`, the next bytes of the frame: none for a block that is not staged. -/
def State.payloadWrites (p : List Byte) (s : State) : List Output :=
  if staged s then stagingWrites (s.cur + (s.pos.toNat - 3)) p else []

/-- The payload bytes `p` have been taken (R76). -/
def State.afterPayload (p : List Byte) (s : State) : State :=
  { s with
    pos := s.pos + BitVec.ofNat 8 p.length
    sum := p.foldl addToSum s.sum
    dest := s.dest.putAll (s.payloadWrites p)
    out := s.out ++ s.payloadWrites p }

/-- Header and payload have been taken; the checksum is next. -/
def State.loaded (n : Byte) (p : List Byte) (s : State) : State := (s.headed n).afterPayload p

/-- The block number is the expected one or, in XFER, the one just accepted (R74). -/
def NumberAccepted (s : State) (n : Byte) : Prop := n = s.exp ∨ s.st = .xfer ∧ n = s.exp - 1#8

section
variable {s : State} (hst : s.st = .await ∨ s.st = .xfer) (hpos : s.pos = 0#8)
include hst hpos

theorem inFrame_soh : InFrame s [0x01#8] { s with pos := 1#8 } :=
  .cons (.soh s hst hpos) (by simp) (.nil _)

theorem inFrame_number {n : Byte} (hn : NumberAccepted s n) :
    InFrame s [0x01#8, n] { s with pos := 2#8, blk := n, dup := n != s.exp } := by
  refine (inFrame_soh hst hpos).append ?_
  rcases hn with hn | ⟨hxfer, hn⟩
  · have hdup : (n != s.exp) = false := by simp [hn]
    rw [hdup]
    exact .cons (.newNumber _ n hst rfl hn) (by simp) (.nil _)
  · have hdup : (n != s.exp) = true := by simp [hn]
    rw [hdup]
    exact .cons (.duplicateNumber _ n hxfer rfl hn) (by simp) (.nil _)

theorem inFrame_header {n : Byte} (hn : NumberAccepted s n) : InFrame s [0x01#8, n, 255#8 - n] (s.headed n) :=
  (inFrame_number hst hpos hn).append (.cons (.complement _ (255#8 - n) hst rfl rfl) (by simp) (.nil _))

end

theorem putAll_append (m : Memory) (os ps : List Output) : m.putAll (os ++ ps) = (m.putAll os).putAll ps := by
  induction os generalizing m with
  | nil => rfl
  | cons o os ih => cases o <;> exact ih _

section
variable {s : State} (hpos : 3 ≤ s.pos.toNat ∧ s.pos.toNat ≤ 130) (b : Byte)
include hpos

/-- The two rows of a payload byte, as one (R76). -/
theorem tableRow_pay (hst : s.st = .await ∨ s.st = .xfer) :
    TableRow s (.rx b) (s.payloadWrites [b]) { s with pos := s.pos + 1#8, sum := s.sum + b } := by
  by_cases hstaged : staged s = true
  · obtain ⟨hdup, hcap⟩ := staged_iff.mp hstaged
    rw [State.payloadWrites, if_pos hstaged]
    exact .payloadWritten s b hst hpos hdup hcap
  · rw [State.payloadWrites, if_neg hstaged]
    exact .payloadNotWritten s b hst hpos (not_staged_iff.mp hstaged)

/-- The writes of a payload are those of its first byte and those of the rest, from the next position on. -/
theorem payloadWrites_cons (p : List Byte) {t : State} (hp : t.pos = s.pos + 1#8) (hcur : t.cur = s.cur)
    (hstaged : staged t = staged s) : s.payloadWrites (b :: p) = s.payloadWrites [b] ++ t.payloadWrites p := by
  have hoff : s.cur + ((s.pos + 1#8).toNat - 3) = s.cur + (s.pos.toNat - 3) + 1 := by bv_omega
  simp only [State.payloadWrites, hstaged, hp, hcur, hoff]
  split_ifs
  · exact stagingWrites_cons _ b p
  · rfl

theorem afterPayload_cons (p : List Byte) :
    (State.performAll { s with pos := s.pos + 1#8, sum := s.sum + b } (s.payloadWrites [b])).afterPayload p =
      s.afterPayload (b :: p) := by
  have hlen : s.pos + 1#8 + BitVec.ofNat 8 p.length = s.pos + BitVec.ofNat 8 (p.length + 1) := by
    rw [BitVec.ofNat_add, BitVec.add_assoc, BitVec.add_comm 1#8]
  rw [performAll_eq]
  simp only [State.afterPayload, List.length_cons, List.foldl_cons, addToSum, hlen]
  rw [payloadWrites_cons hpos b p, putAll_append, List.append_assoc] <;> rfl

end

theorem inFrame_payload (p : List Byte) {s : State} (hst : s.st = .await ∨ s.st = .xfer) (h3 : 3 ≤ s.pos.toNat)
    (hlen : s.pos.toNat + p.length ≤ 131) : InFrame s p (s.afterPayload p) := by
  induction p generalizing s with
  | nil =>
    have hnil : s.payloadWrites [] = [] := ite_self _
    simpa [State.afterPayload, hnil, Memory.putAll] using InFrame.nil s
  | cons b p ih =>
    rw [List.length_cons] at hlen
    have hpos : 3 ≤ s.pos.toNat ∧ s.pos.toNat ≤ 130 := ⟨h3, by omega⟩
    have hnext : (s.pos + 1#8).toNat = s.pos.toNat + 1 := by bv_omega
    have hne : s.pos + 1#8 ≠ 0#8 := by bv_omega
    have h3' : 3 ≤ (s.pos + 1#8).toNat := by omega
    have hlen' : (s.pos + 1#8).toNat + p.length ≤ 131 := by omega
    rw [← afterPayload_cons hpos b p]
    refine .cons (tableRow_pay hpos b hst) hne (ih ?_ ?_ ?_) <;> rwa [performAll_eq]

/-- Header and payload of a frame with an accepted number leave the parser in front of the checksum. -/
theorem inFrame_loaded {s : State} {n : Byte} {p : List Byte} (hst : s.st = .await ∨ s.st = .xfer) (hpos : s.pos = 0#8)
    (hn : NumberAccepted s n) (hp : p.length = 128) : InFrame s (0x01#8 :: n :: (255#8 - n) :: p) (s.loaded n p) := by
  have h3 : 3 ≤ (s.headed n).pos.toNat := (by decide : 3 ≤ (3#8 : Byte).toNat)
  have h131 : (s.headed n).pos.toNat + p.length ≤ 131 := hp ▸ (by decide : (3#8 : Byte).toNat + 128 ≤ 131)
  exact (inFrame_header hst hpos hn).append (inFrame_payload p (s := s.headed n) hst h3 h131)

theorem loaded_pos (s : State) (n : Byte) {p : List Byte} (hp : p.length = 128) : (s.loaded n p).pos = 131#8 := by
  simp [State.loaded, State.afterPayload, State.headed, hp]

/-! ## Attempts that end in a NAK (`42_sequencer.md` R106) -/

/-- The events are one attempt, answered with one NAK, and the session is as it was. -/
structure Naked (s : State) (es : List Event) (v : State) : Prop where
  attempted : Attempted s es v
  same : SameSession s v
  pos : v.pos = 0#8
  sent : v.transmitted = s.transmitted ++ [0x15#8]

/-- Inside a frame, a row that only goes back to `pos` = 0 with a NAK makes the whole attempt such a one. -/
theorem InFrame.naked {s t : State} {bs : List Byte} {e : Event} (h : InFrame s bs t)
    (hrow : TableRow t e [.tx 0x15#8] { t with pos := 0#8 }) (hend : AttemptEnds e 0#8) :
    Naked s (received bs ++ [e]) { t with pos := 0#8, out := t.out ++ [.tx 0x15#8] } := by
  obtain ⟨⟨h1, h2, h3, h4, h5, h6, h7⟩, hsent⟩ := h.keeps
  refine ⟨h.attempted (.last hrow hend), ⟨h1, h2, h3, h4, h5, h6, h7⟩, rfl, ?_⟩
  exact (transmitted_of_row hrow).trans (congrArg (· ++ [0x15#8]) hsent)

theorem rx_ends (b : Byte) : AttemptEnds (.rx b) 0#8 := .inr ⟨⟨b, rfl⟩, rfl⟩

section
variable {s : State} (hst : s.st = .await ∨ s.st = .xfer) (hpos : s.pos = 0#8) {n : Byte}
include hst hpos

theorem naked_wrongNumber (hn : ¬ NumberAccepted s n) :
    Naked s [.rx 0x01#8, .rx n] { s with pos := 0#8, out := s.out ++ [.tx 0x15#8] } := by
  obtain ⟨hnew, hdup⟩ := not_or.mp hn
  have hrow : TableRow { s with pos := 1#8 } (.rx n) [.tx 0x15#8] { s with pos := 0#8 } := by
    rcases hst with hst | hst
    · exact .wrongNumberAwait { s with pos := 1#8 } n hst rfl hnew
    · exact .wrongNumberXfer { s with pos := 1#8 } n hst rfl hnew fun hb => hdup ⟨hst, hb⟩
  exact (inFrame_soh hst hpos).naked hrow (rx_ends n)

theorem naked_wrongComplement (hn : NumberAccepted s n) {c : Byte} (hc : c ≠ 255#8 - n) :
    Naked s [.rx 0x01#8, .rx n, .rx c]
      { s with pos := 0#8, blk := n, dup := n != s.exp, out := s.out ++ [.tx 0x15#8] } :=
  (inFrame_number hst hpos hn).naked (.wrongComplement _ c hst rfl hc) (rx_ends c)

theorem naked_wrongChecksum (hn : NumberAccepted s n) {p : List Byte} (hp : p.length = 128) {k : Byte} (hk : k ≠ checksumOf p) :
    Naked s (received (0x01#8 :: n :: (255#8 - n) :: p) ++ [.rx k])
      { s.loaded n p with pos := 0#8, out := (s.loaded n p).out ++ [.tx 0x15#8] } :=
  (inFrame_loaded hst hpos hn hp).naked (.checksumError _ k hst (loaded_pos s n hp) hk) (rx_ends k)

theorem naked_timeout (hn : NumberAccepted s n) {p : List Byte} (hp : p.length = 128) (m : Nat) :
    ∃ v, Naked s (received ((0x01#8 :: n :: (255#8 - n) :: p).take m) ++ [.tmo]) v := by
  obtain ⟨t, ht⟩ := (inFrame_loaded hst hpos hn hp).take m
  exact ⟨_, ht.naked (.timeout t (by rwa [ht.keeps.1.st])) (.inl rfl)⟩

/-- R106: every defective attempt is answered with one NAK and leaves the session. -/
theorem naked_of_defective {es : List Event} (h : Defective s es) : ∃ v, Naked s es v := by
  cases h with
  | illegal b hwf =>
    obtain ⟨h1, h4⟩ := illegal_wellFormed_iff.mp hwf
    exact ⟨_, (InFrame.nil s).naked (.illegal s b hst hpos h1 h4) (rx_ends b)⟩
  | wrongNumber n hn hd => exact ⟨_, naked_wrongNumber hst hpos (not_or.mpr ⟨hn, fun h => hd h.1 h.2⟩)⟩
  | wrongComplement n c hn hc => exact ⟨_, naked_wrongComplement hst hpos hn hc⟩
  | wrongChecksum n p k hn hp hk =>
    have hes : (encode (.data n (255#8 - n) p k)).bytes.map Event.rx =
        received (0x01#8 :: n :: (255#8 - n) :: p) ++ [.rx k] := by simp [encode, Signal.bytes, received]
    rw [hes]
    exact ⟨_, naked_wrongChecksum hst hpos hn hp hk⟩
  | timeout n p k m hn hp hm =>
    have hlen : m ≤ (0x01#8 :: n :: (255#8 - n) :: p).length := by
      simp only [List.length_cons, hp]
      omega
    have htake : (encode (.data n (255#8 - n) p k)).bytes.take m = (0x01#8 :: n :: (255#8 - n) :: p).take m :=
      List.take_append_of_le_length (l₂ := [k]) hlen
    rw [htake]
    exact naked_timeout hst hpos hn hp m

end

/-- What is defective in front of an engine is so in front of any other whose session stands alike. -/
theorem Defective.of_same {s t : State} {es : List Event} (hst : t.st = s.st) (hexp : t.exp = s.exp) (h : Defective s es) :
    Defective t es := by
  cases h with
  | illegal b h => exact .illegal b h
  | wrongNumber n h hd => exact .wrongNumber n (by rwa [hexp]) (by rwa [hst, hexp])
  | wrongComplement n c h hc => exact .wrongComplement n c (by rwa [hst, hexp]) hc
  | wrongChecksum n p k h hp hk => exact .wrongChecksum n p k (by rwa [hst, hexp]) hp hk
  | timeout n p k m h hp hm => exact .timeout n p k m (by rwa [hst, hexp]) hp hm

/-- The states of a run on an endless sequence of attempts; it stays where it is if one cannot be run. -/
def endlessRun (env : Nat → List Event) (s : State) : Nat → State
  | 0 => s
  | k + 1 =>
    match runEvents (env k) (endlessRun env s k) with
    | .next t => t
    | .fault _ => endlessRun env s k
    | .refused _ => endlessRun env s k

theorem endlessRun_succ {env : Nat → List Event} {s t : State} {k : Nat}
    (h : runEvents (env k) (endlessRun env s k) = .next t) :
    endlessRun env s (k + 1) = t := by
  rw [endlessRun, h]

/-- After `k` defective attempts the session stands as it did, and `k` NAKs have been sent. -/
structure NakedTimes (s : State) (k : Nat) (t : State) : Prop where
  same : SameSession s t
  pos : t.pos = 0#8
  sent : t.transmitted = s.transmitted ++ List.replicate k 0x15#8

/-- One attempt more. -/
theorem NakedTimes.next {s t : State} {k : Nat} {es : List Event} (hst : s.st = .await ∨ s.st = .xfer) (hpend : s.pend = [])
    (hin : s.input = []) (h : NakedTimes s k t) (hd : Defective s es) :
    ∃ v, runEvents es t = .next v ∧ NakedTimes s (k + 1) v := by
  have hst' : t.st = .await ∨ t.st = .xfer := by rwa [h.same.st]
  obtain ⟨v, hatt, hsame, hpos, hsent⟩ := naked_of_defective hst' h.pos (hd.of_same h.same.st h.same.exp)
  refine ⟨v, hatt.runEvents (h.same.pend.trans hpend) (h.same.input.trans hin), h.same.trans hsame, hpos, ?_⟩
  rw [hsent, h.sent, List.append_assoc, ← List.replicate_succ']

/-- Settles O52 (R106, D16), by induction on the number of attempts: each of them can be run and is one NAK more. -/
theorem defectsForEverMeanNaksForEver : Obligations.DefectsForEverMeanNaksForEver := by
  intro s env hst hpos hpend hin hdef
  have naked (k : Nat) : NakedTimes s k (endlessRun env s k) := by
    induction k with
    | zero => exact ⟨.refl s, hpos, by simp [endlessRun]⟩
    | succ k ih =>
      obtain ⟨v, hrun, hv⟩ := ih.next hst hpend hin (hdef k)
      exact endlessRun_succ hrun ▸ hv
  refine ⟨endlessRun env s, rfl, fun k => ?_, fun k => ?_⟩
  · obtain ⟨v, hrun, -⟩ := (naked k).next hst hpend hin (hdef k)
    rw [hrun, endlessRun_succ hrun]
  · obtain ⟨⟨h1, h2, h3, h4, h5, -, -⟩, hp, hs⟩ := naked k
    exact ⟨h1, h2, h3, h4, h5, hp, hs⟩

end Sys2Proof.Machine
end

section
namespace Sys2Proof.Machine

/-! ## The DATA row (`30_encoding.md` R64, R69) -/

theorem frameBytes_bytes (n c k : Byte) (p : List Byte) :
    (frameBytes n c p k).map FrameByte.byte = (encode (.data n c p k)).bytes := by
  simp [frameBytes, encode, Signal.bytes, Function.comp_def]

/-- The payload and the checksum of a frame with their instructions (R76, R77). -/
def payloadBytes (p : List Byte) (k : Byte) : List FrameByte :=
  p.map (fun b => ⟨b, execDataPay b⟩) ++ [⟨k, execDataSum k⟩]

theorem received_payloadBytes (p : List Byte) (k : Byte) :
    received ((payloadBytes p k).map FrameByte.byte) = (p ++ [k]).map .rx := by
  simp [payloadBytes, received]

theorem exec_data (n c k : Byte) (p : List Byte) (s : State) :
    exec (.data n c p k) s =
      attempt (⟨0x01#8, execDataSoh⟩ :: ⟨n, execDataBlk n⟩ :: ⟨c, execDataCmp c⟩ :: payloadBytes p k) s := rfl

theorem readFrom_payload (k : Byte) (p : List Byte) {pos : Byte} (h3 : 3 ≤ pos.toNat) (hlen : pos.toNat + p.length = 131) :
    ReadFrom pos (payloadBytes p k) := by
  induction p generalizing pos with
  | nil => exact ⟨⟨.dataSum k, decodeRx_checksum k (BitVec.eq_of_toNat_eq hlen), rfl⟩, trivial⟩
  | cons b p ih =>
    rw [List.length_cons] at hlen
    have hnext : (pos + 1#8).toNat = pos.toNat + 1 := by bv_omega
    exact ⟨⟨.dataPay b, decodeRx_payload b h3 (by omega), rfl⟩, ih (by omega) (by omega)⟩

/-- The instructions of a well-formed frame are those the decoder reads, a byte a position. -/
theorem readFrom_frameBytes (n c k : Byte) {p : List Byte} (hp : p.length = 128) : ReadFrom 0#8 (frameBytes n c p k) :=
  ⟨⟨.dataSoh, rfl, rfl⟩, ⟨.dataBlk n, rfl, rfl⟩, ⟨.dataCmp c, rfl, rfl⟩,
    readFrom_payload k p (pos := 3#8) (by decide) (by rw [hp]; rfl)⟩

theorem ReadFrom.take {pos : Byte} {fs : List FrameByte} (h : ReadFrom pos fs) (m : Nat) : ReadFrom pos (fs.take m) := by
  induction fs generalizing pos m with
  | nil => simpa using h
  | cons f fs ih =>
    cases m with
    | zero => trivial
    | succ m => exact ⟨h.1, ih h.2 m⟩

theorem length_frame (n c k : Byte) {p : List Byte} (hp : p.length = 128) : (encode (.data n c p k)).bytes.length = 132 :=
  Laws.WireLength.data n c p k (data_wellFormed_iff.mpr hp)

section
variable {s : State} (hst : s.st = .await ∨ s.st = .xfer) (hpend : s.pend = []) (hpos : s.pos = 0#8)
  {n c k : Byte} {p : List Byte}

include hpend hpos in
/-- The DATA row runs the attempt its first bytes make, and puts the others in front of the events to come (R78). -/
theorem exec_data_of_attempted (hp : p.length = 128) {taken : Nat} {v : State}
    (h : Attempted s (received ((encode (.data n c p k)).bytes.take taken)) v) :
    exec (.data n c p k) s = .next (v.setInput (received ((encode (.data n c p k)).bytes.drop taken) ++ s.input)) := by
  have hread : ReadFrom s.pos ((frameBytes n c p k).take taken) := hpos ▸ (readFrom_frameBytes n c k hp).take taken
  have hrun := h.attempt hpend hread (by rw [List.map_take, frameBytes_bytes]) ((frameBytes n c p k).drop taken)
  rwa [List.take_append_drop, List.map_drop, frameBytes_bytes] at hrun

include hst hpos in
/-- A frame with a right header is one attempt, ended by the row of its checksum. -/
theorem attempted_whole (hp : p.length = 128) (hn : NumberAccepted s n) {u : State} {os : List Output}
    (hrow : TableRow (s.loaded n p) (.rx k) os u) (hu : u.pos = 0#8) :
    Attempted s (received ((encode (.data n (255#8 - n) p k)).bytes.take 132)) (u.performAll os) := by
  have hatt := (inFrame_loaded hst hpos hn hp).attempted (.last hrow (.inr ⟨⟨k, rfl⟩, hu⟩))
  rw [List.take_of_length_le (length_frame n _ k hp).le]
  simpa [encode, Signal.bytes, received] using hatt

include hst hpend hpos in
theorem exec_data_whole (hp : p.length = 128) (hn : NumberAccepted s n) {u : State} {os : List Output}
    (hrow : TableRow (s.loaded n p) (.rx k) os u) (hu : u.pos = 0#8) :
    exec (.data n (255#8 - n) p k) s = .next (u.performAll os) := by
  have hatt := attempted_whole hst hpos hp hn hrow hu
  obtain ⟨-, hinput, -⟩ := hatt.ends
  rw [exec_data_of_attempted hpend hpos hp hatt, List.drop_of_length_le (length_frame n _ k hp).le, ← hinput]
  rfl

/-- Every row of a checksum byte ends the attempt (R77, R81). -/
theorem TableRow.checksum_ends {u : State} {b : Byte} {os : List Output} (h : TableRow s (.rx b) os u) (hp : s.pos = 131#8) :
    u.pos = 0#8 := by
  cases h with
  | soh _ hpos | newNumber _ _ hpos | duplicateNumber _ _ hpos | complement _ _ hpos => simp [hp] at hpos
  | payloadWritten _ _ hpos | payloadNotWritten _ _ hpos => simp [hp] at hpos
  | eot _ hpos => exact hpos
  | _ => rfl

include hst hpos in
/-- R78: a well-formed frame is one attempt in its first 2, 3 or all 132 bytes. -/
theorem frame_attempted (n c k : Byte) (hp : p.length = 128) : ∃ taken v, (taken = 2 ∨ taken = 3 ∨ taken = 132) ∧
    Attempted s (received ((encode (.data n c p k)).bytes.take taken)) v := by
  by_cases hn : NumberAccepted s n
  · by_cases hc : c = 255#8 - n
    · subst hc
      have hdup : (s.loaded n p).dup = true → s.st = .xfer := fun hd =>
        (hn.resolve_left (bne_iff_ne.mp hd)).1
      obtain ⟨os, u, hrow⟩ := tableRow_checksum (s := s.loaded n p) hst k (loaded_pos s n hp) hdup
      exact ⟨132, _, .inr (.inr rfl), attempted_whole hst hpos hp hn hrow (hrow.checksum_ends (loaded_pos s n hp))⟩
    · exact ⟨3, _, .inr (.inl rfl), (naked_wrongComplement hst hpos hn hc).attempted⟩
  · exact ⟨2, _, .inl rfl, (naked_wrongNumber hst hpos hn).attempted⟩

end

/-- Settles O20: the frame is one attempt, and an attempt ends at `pos` = 0 with one response. -/
theorem frameAttemptAlwaysEndsWithOneResponse : Obligations.FrameAttemptAlwaysEndsWithOneResponse := by
  intro s n c k p hwf hst hpend hpos
  have hp : p.length = 128 := data_wellFormed_iff.mp hwf
  obtain ⟨taken, v, htaken, hatt⟩ := frame_attempted hst hpos n c k hp
  obtain ⟨hpos', -, hpend', r, hr, hsent⟩ := hatt.ends
  exact ⟨_, taken, r, exec_data_of_attempted hpend hpos hp hatt, hpend'.trans hpend, hpos', hr, hsent, htaken, rfl⟩

/-- Settles O26: the attempt is run by the DATA row and, with the same result, by `step`, a byte a step. -/
theorem frameIsItsByteSteps : Obligations.FrameIsItsByteSteps := by
  intro s n c k p hwf hst hpend hpos
  have hp : p.length = 128 := data_wellFormed_iff.mp hwf
  obtain ⟨taken, v, htaken, hatt⟩ := frame_attempted hst hpos n c k hp
  refine ⟨taken, htaken, ?_⟩
  rw [exec_data_of_attempted hpend hpos hp hatt]
  have hlen : (received ((encode (.data n c p k)).bytes.take taken)).length = taken := by
    rw [received, List.length_map, List.length_take, length_frame n c k hp]
    omega
  have hrun := hatt.runSteps hpend (received ((encode (.data n c p k)).bytes.drop taken) ++ s.input)
  rwa [hlen, ← List.append_assoc, received, received, ← List.map_append, List.take_append_drop] at hrun

/-- Settles O21 (D6): the attempt is over after the byte that is wrong, so the DATA row reads no further, whatever follows. -/
theorem headerDefectLeavesTheRestUnread : Obligations.HeaderDefectLeavesTheRestUnread := by
  intro s n c k p hst hpend hpos
  have hread : ReadFrom s.pos [⟨0x01#8, execDataSoh⟩, ⟨n, execDataBlk n⟩, ⟨c, execDataCmp c⟩] :=
    hpos ▸ ⟨⟨.dataSoh, rfl, rfl⟩, ⟨.dataBlk n, rfl, rfl⟩, ⟨.dataCmp c, rfl, rfl⟩, trivial⟩
  rw [exec_data]
  constructor
  · intro hnew hdup
    have hatt := (naked_wrongNumber hst hpos (not_or.mpr ⟨hnew, hdup⟩)).attempted
    have hrun := hatt.attempt hpend (hread.take 2) rfl (⟨c, execDataCmp c⟩ :: payloadBytes p k)
    refine hrun.trans ?_
    have hrest : received ((⟨c, execDataCmp c⟩ :: payloadBytes p k : List FrameByte).map FrameByte.byte) =
        (c :: p ++ [k]).map .rx := congrArg (List.cons (Event.rx c)) (received_payloadBytes p k)
    rw [hrest, State.setInput, hpos]
  · intro hn hc
    have hatt := (naked_wrongComplement hst hpos hn hc).attempted
    have hrun := hatt.attempt hpend hread rfl (payloadBytes p k)
    refine hrun.trans ?_
    rw [received_payloadBytes, State.setInput, hpos]

/-! ## Frames with a right header, by their checksum and the room left -/

theorem staged_headed_iff {s : State} {n : Byte} : staged (s.headed n) = true ↔ n = s.exp ∧ 128 ≤ s.cap :=
  staged_iff.trans (and_congr_left' bne_eq_false_iff_eq)

theorem loaded_of_room {s : State} {p : List Byte} (hp : p.length = 128) (hcap : 128 ≤ s.cap) :
    s.loaded s.exp p =
      { s with
        pos := 131#8
        blk := s.exp
        dup := false
        sum := checksumOf p
        dest := s.dest.putAll (stagingWrites s.cur p)
        out := s.out ++ stagingWrites s.cur p } := by
  have hwrites : (s.headed s.exp).payloadWrites p = stagingWrites s.cur p :=
    if_pos (staged_headed_iff.mpr ⟨rfl, hcap⟩)
  rw [State.loaded, State.afterPayload, hwrites]
  simp [State.headed, hp, checksumOf]

theorem loaded_of_not_staged {s : State} {n : Byte} {p : List Byte} (hp : p.length = 128) (h : n ≠ s.exp ∨ s.cap < 128) :
    s.loaded n p = { s with pos := 131#8, blk := n, dup := n != s.exp, sum := checksumOf p } := by
  have hwrites : (s.headed n).payloadWrites p = [] :=
    if_neg (mt staged_headed_iff.mp fun ⟨hn, hcap⟩ => h.elim (· hn) (Nat.not_lt_of_le hcap))
  rw [State.loaded, State.afterPayload, hwrites]
  simp [State.headed, hp, checksumOf, Memory.putAll]

/-- Inside the staging area the sink holds the payload, and outside it what it held (R110). -/
theorem read_staged (m : Memory) (off : Nat) {p : List Byte} (hp : p.length = 128) :
    (∀ k, k < 128 → (m.putAll (stagingWrites off p)).read (off + k) = p[k]?) ∧
      ∀ a, (a < off ∨ off + 128 ≤ a) → (m.putAll (stagingWrites off p)).read a = m.read a := by
  constructor
  · intro k hk
    rw [read_putAll_stagingWrites, if_pos (by omega), Nat.add_sub_cancel_left]
  · intro a ha
    rw [read_putAll_stagingWrites, if_neg (by omega)]

/-- Settles O22: the row of the accepted block, behind a payload that has been staged. -/
theorem goodFrameIsAccepted : Obligations.GoodFrameIsAccepted := by
  intro s p hp hst hpend hpos hcap
  refine ⟨s.dest.putAll (stagingWrites s.cur p), ?_, read_staged s.dest s.cur hp⟩
  have hrow := TableRow.accept (s.loaded s.exp p) (checksumOf p) hst (loaded_pos s s.exp hp) rfl (bne_self_eq_false s.exp) hcap
  refine (exec_data_whole hst hpend hpos hp (.inl rfl) hrow rfl).trans ?_
  rw [performAll_eq, loaded_of_room hp hcap]
  simp [Memory.putAll, stagingWrites, hpos]

/-- Settles O23: the row of the duplicate; a duplicate's payload is not staged. -/
theorem duplicateFrameIsNotWrittenAgain : Obligations.DuplicateFrameIsNotWrittenAgain := by
  intro s p hp hst hpend hpos
  have hne : s.exp - 1#8 ≠ s.exp := by bv_omega
  have hrow := TableRow.duplicate (s.loaded (s.exp - 1#8) p) (checksumOf p) hst (loaded_pos s _ hp) rfl (bne_iff_ne.mpr hne)
  refine (exec_data_whole (.inr hst) hpend hpos hp (.inr ⟨hst, rfl⟩) hrow rfl).trans ?_
  rw [performAll_eq, loaded_of_not_staged hp (.inl hne)]
  simp [Memory.putAll, hpos]

/-- Settles O24 (D11, D12, D13): the row of Overflow; what does not fit is not staged. -/
theorem frameThatDoesNotFitIsNotWritten : Obligations.FrameThatDoesNotFitIsNotWritten := by
  intro s p hp hst hpend hpos hcap
  have hrow := TableRow.overflow (s.loaded s.exp p) (checksumOf p) hst (loaded_pos s _ hp) rfl (bne_self_eq_false s.exp) hcap
  refine (exec_data_whole hst hpend hpos hp (.inl rfl) hrow rfl).trans ?_
  rw [performAll_eq, loaded_of_not_staged hp (.inr hcap)]
  simp [Memory.putAll, hpos]

/-- Settles O25 (D10): the row of the wrong checksum, behind a payload that has been staged. -/
theorem corruptFrameLeavesResidueOnlyInStaging : Obligations.CorruptFrameLeavesResidueOnlyInStaging := by
  intro s p k hp hk hst hpend hpos hcap
  have hsent := (naked_wrongChecksum hst hpos (.inl rfl) hp hk).sent
  have hrow := TableRow.checksumError (s.loaded s.exp p) k hst (loaded_pos s _ hp) hk
  obtain ⟨hread, hframe⟩ := read_staged s.dest s.cur hp
  rw [loaded_of_room hp hcap] at hsent
  refine ⟨_, exec_data_whole hst hpend hpos hp (.inl rfl) hrow rfl, ?_⟩
  rw [performAll_eq, loaded_of_room hp hcap]
  exact ⟨by simp [hpos], hsent, hread, hframe⟩

end Sys2Proof.Machine
end

section
namespace Sys2Proof.Machine

/-! ## A whole transfer (`70_reset_and_hazards.md` section 4) -/

/-- An instruction with a row in the table, run in a row with others (R104). -/
theorem runInstrs_of_tableRow {s u : State} {e : Event} {i : Instr} {os : List Output} (hd : decodeEvent s.pos e = .ok i)
    (hpend : s.pend = []) (h : TableRow s e os u) (is : List Instr) :
    runInstrs (i :: is) s = runInstrs is (u.performAll os) := by
  rw [runInstrs, exec_of_tableRow hd hpend h, andThen_next, drain_of_row hpend h, andThen_next]

/-- An instruction that leaves nothing to deliver, run in a row with others. -/
theorem runInstrs_of_exec {s t : State} {i : Instr} (h : exec i s = .next t) (hpend : t.pend = []) (is : List Instr) :
    runInstrs (i :: is) s = runInstrs is t := by
  rw [runInstrs, h, andThen_next, drain_nil hpend, andThen_next]

theorem andThen_assoc {α : Type} (o : Host.Outcome α Fault Refusal) (f : α → Host.Outcome State Fault Refusal)
    (g : State → Host.Outcome State Fault Refusal) : andThen (andThen o f) g = andThen o fun a => andThen (f a) g := by
  cases o <;> rfl

theorem runInstrs_append (is js : List Instr) (s : State) :
    runInstrs (is ++ js) s = andThen (runInstrs is s) (runInstrs js) := by
  induction is generalizing s with
  | nil => rfl
  | cons i is ih => simp only [List.cons_append, runInstrs, andThen_assoc, funext ih]

/-- What the good frames of the payloads `ps` make of `s`: the session is between frames, its cursor behind the payloads, one
ACK a block has been sent, and the sink holds the payloads in order and everywhere else what it held (R118). -/
structure BlocksReceived (s : State) (ps : List (List Byte)) (t : State) : Prop where
  sessionOpen : t.st = .await ∨ t.st = .xfer
  pos : t.pos = 0#8
  pend : t.pend = []
  input : t.input = s.input
  cur : t.cur = s.cur + 128 * ps.length
  sent : t.transmitted = s.transmitted ++ List.replicate ps.length 0x06#8
  completions : t.completions = s.completions
  written : ∀ a, a < 128 * ps.length → t.dest.read (s.cur + a) = ps.flatten[a]?
  untouched : ∀ a, (a < s.cur ∨ s.cur + 128 * ps.length ≤ a) → t.dest.read a = s.dest.read a

/-- No blocks leave a session between frames as it is. -/
theorem BlocksReceived.nil {s : State} (hst : s.st = .await ∨ s.st = .xfer) (hpos : s.pos = 0#8) (hpend : s.pend = []) :
    BlocksReceived s [] s :=
  ⟨hst, hpos, hpend, rfl, rfl, by simp, rfl, nofun, fun _ _ => rfl⟩

/-- An accepted block and those after it (R85): the offsets of the later ones begin where its own end. -/
theorem BlocksReceived.cons {s t u : State} {p : List Byte} {ps : List (List Byte)} (hp : p.length = 128)
    (h : BlocksReceived s [p] t) (h' : BlocksReceived t ps u) : BlocksReceived s (p :: ps) u where
  sessionOpen := h'.sessionOpen
  pos := h'.pos
  pend := h'.pend
  input := h'.input.trans h.input
  cur := by
    rw [h'.cur, h.cur]
    simp only [List.length_cons, List.length_nil]
    omega
  sent := by
    rw [h'.sent, h.sent, List.append_assoc, ← List.replicate_add]
    exact congrArg (s.transmitted ++ List.replicate · 0x06#8) (Nat.add_comm 1 ps.length)
  completions := h'.completions.trans h.completions
  written a ha := by
    have hcur : t.cur = s.cur + 128 := h.cur
    rw [List.length_cons] at ha
    rw [List.flatten_cons]
    rcases Nat.lt_or_ge a 128 with hlt | hge
    · rw [h'.untouched _ (by omega), h.written a hlt, List.getElem?_append_left (by omega)]
      simp
    · rw [List.getElem?_append_right (by omega), hp, ← h'.written (a - 128) (by omega)]
      exact congrArg _ (by omega)
  untouched a ha := by
    have hcur : t.cur = s.cur + 128 := h.cur
    rw [List.length_cons] at ha
    rw [h'.untouched a (by omega), h.untouched a (by rw [List.length_singleton]; omega)]

/-- One good frame that fits (`Obligations.GoodFrameIsAccepted`), in the terms of the transfer. -/
theorem runInstrs_goodFrame {s : State} {p : List Byte} (hst : s.st = .await ∨ s.st = .xfer) (hpos : s.pos = 0#8)
    (hpend : s.pend = []) (hp : p.length = 128) (hcap : 128 ≤ s.cap) (is : List Instr) :
    ∃ t, runInstrs (goodFrame s.exp p :: is) s = runInstrs is t ∧ t.exp = s.exp + 1#8 ∧ t.cap = s.cap - 128 ∧
      BlocksReceived s [p] t := by
  obtain ⟨d, hrun, hread, hframe⟩ := goodFrameIsAccepted s p hp hst hpend hpos hcap
  have writes_skipped {α : Type} {f : Output → Option α} (hf : ∀ off v, f (.sinkWrite off v) = none) :
      (p.mapIdx fun k b => Output.sinkWrite (s.cur + k) b).filterMap f = [] := filterMap_stagingWrites hf s.cur p
  refine ⟨_, runInstrs_of_exec hrun hpend is, rfl, rfl, .inr rfl, hpos, hpend, rfl, by simp, ?sent, ?completions, ?written,
    fun a ha => hframe a (by simpa using ha)⟩
  case sent =>
    rw [transmitted_eq, List.filterMap_append, List.filterMap_append, ← transmitted_eq, writes_skipped fun _ _ => rfl,
      List.append_nil]
    rfl
  case completions =>
    rw [completions_eq, List.filterMap_append, List.filterMap_append, ← completions_eq, writes_skipped fun _ _ => rfl,
      List.append_nil]
    exact List.append_nil _
  case written =>
    intro a ha
    simpa using hread a ha

/-- Frames with rising numbers that fit are received one after another. -/
theorem runInstrs_framesFrom {s : State} {ps : List (List Byte)} (hst : s.st = .await ∨ s.st = .xfer) (hpos : s.pos = 0#8)
    (hpend : s.pend = []) (hps : ∀ p ∈ ps, p.length = 128) (hcap : 128 * ps.length ≤ s.cap) :
    ∃ t, runInstrs (framesFrom s.exp ps) s = .next t ∧ BlocksReceived s ps t := by
  induction ps generalizing s with
  | nil => exact ⟨s, rfl, .nil hst hpos hpend⟩
  | cons p ps ih =>
    rw [List.length_cons] at hcap
    have hp : p.length = 128 := hps p List.mem_cons_self
    obtain ⟨t, hrun, hexp, hcap', ht⟩ := runInstrs_goodFrame hst hpos hpend hp (by omega) (framesFrom (successor s.exp) ps)
    obtain ⟨u, hrun', hu⟩ := ih ht.sessionOpen ht.pos ht.pend (fun q hq => hps q (List.mem_cons_of_mem p hq)) (by omega)
    refine ⟨u, ?_, ht.cons hp hu⟩
    rw [framesFrom, hrun, ← hrun', hexp]
    rfl

/-- Between frames EOT and CPL end the session: an ACK, then the completion (R96, R99). -/
theorem runInstrs_eot_cpl {s : State} (hst : s.st = .await ∨ s.st = .xfer) (hpos : s.pos = 0#8) (hpend : s.pend = []) :
    runInstrs [.eot, .cpl] s =
      .next { s with st := .idle, err := .none, out := s.out ++ [.tx 0x06#8, .complete s.cur .none] } := by
  have hd : decodeEvent s.pos (.rx 0x04#8) = .ok .eot := by
    rw [hpos]
    rfl
  have heot := runInstrs_of_tableRow hd hpend (.eot s hst hpos) [.cpl]
  have hcpl := runInstrs_of_tableRow (s := { s with st := .done, err := .none, out := s.out ++ [.tx 0x06#8] }) (e := .cpl) rfl
    hpend (.completion _ rfl) []
  refine heot.trans (hcpl.trans ?_)
  simp [runInstrs, State.perform, State.record]

/-- Settles O27: `ARM` opens the session, the frames are received by induction on their list, and EOT and CPL end it. -/
theorem transferDeliversConcatenation : Obligations.TransferDeliversConcatenation := by
  intro s c ps hidle hpend hps hcap
  have harm := runInstrs_of_tableRow (e := .arm c) rfl hpend (.armAccepted s c hidle) (framesFrom 1#8 ps ++ [.eot, .cpl])
  obtain ⟨t, hrun, ht⟩ := runInstrs_framesFrom
    (s := { s with st := .await, pos := 0#8, exp := 1#8, cur := 0, cap := c, err := .none }) (.inl rfl) rfl hpend hps hcap
  obtain ⟨hst, hpos, hpend', hinput, hcur, hsent, hcompletions, hwritten, huntouched⟩ := ht
  have hcur' : t.cur = 128 * ps.length := hcur.trans (Nat.zero_add _)
  refine ⟨{ t with st := .idle, err := .none, out := t.out ++ [.tx 0x06#8, .complete t.cur .none] },
    harm.trans ?run, rfl, hinput, ?sent,
    ?completions, fun a ha => ?_, fun a ha => ?_⟩
  case run =>
    rw [runInstrs_append]
    exact (congrArg (andThen · _) hrun).trans (runInstrs_eot_cpl hst hpos hpend')
  case sent =>
    rw [transmitted_eq, List.filterMap_append, ← transmitted_eq, hsent, List.replicate_succ', ← List.append_assoc]
    rfl
  case completions =>
    rw [completions_eq, List.filterMap_append, ← completions_eq, hcompletions, hcur']
    rfl
  · simpa using hwritten a ha
  · exact huntouched a (.inr ((Nat.zero_add _).symm ▸ ha))

end Sys2Proof.Machine
end
